-- ==== Sys2Proof/Word.lean ====
section
/-! DEFINITION. The word types of the part, its units of size, and tables of a fixed number of records. -/

namespace Sys2Proof

/-- One management slot (R150): 32 bits. -/
abbrev Word := BitVec 32

/-- One byte of the pool, of a link message or of the boot image. -/
abbrev Byte := BitVec 8

/-- A granule is 2 MiB (02, section 2.1). -/
def granuleBytes : Nat := 2097152

/-- A chunk is 4 KiB (00_scope.md 1.2). -/
def chunkBytes : Nat := 4096

/-- Node addresses lie below 2^40 (00_scope.md 1.2). -/
def nodeSpace : Nat := 1099511627776

namespace Table

/-- The record at an index of a table. -/
def get (t : Vector α k) (i : Fin k) : α := t[i.val]

/-- The table with the record at one index replaced. -/
def put (t : Vector α k) (i : Fin k) (x : α) : Vector α k := t.set i.val x i.isLt

/-- The table whose records are all the same. -/
def fill (k : Nat) (x : α) : Vector α k := Vector.replicate k x

@[simp] theorem get_put_same (t : Vector α k) (i : Fin k) (x : α) : get (put t i x) i = x := by
  simp [get, put]

theorem get_put (t : Vector α k) (i j : Fin k) (x : α) :
    get (put t i x) j = if i = j then x else get t j := by
  simp [get, put, Vector.getElem_set, Fin.ext_iff]

@[simp] theorem get_put_of_ne (t : Vector α k) {i j : Fin k} (x : α) (h : i ≠ j) :
    get (put t i x) j = get t j := by
  rw [get_put, if_neg h]

@[simp] theorem get_fill (k : Nat) (x : α) (i : Fin k) : get (fill k x) i = x := by
  simp [get, fill]

@[simp] theorem put_put (t : Vector α k) (i : Fin k) (x y : α) : put (put t i x) i y = put t i y := by
  simp [put]

@[simp] theorem put_get (t : Vector α k) (i : Fin k) : put t i (get t i) = t := by
  simp [put, get]

theorem ext {t u : Vector α k} (h : ∀ i, get t i = get u i) : t = u :=
  Vector.ext fun i hi => h ⟨i, hi⟩

end Table

/-- The four nodes, in node order. -/
def allNodes : List (Fin 4) := [0, 1, 2, 3]

/-- The four job slots, in slot order. -/
def allSlots : List (Fin 4) := [0, 1, 2, 3]

/-- The four pool channels. -/
def allChannels : List (Fin 4) := [0, 1, 2, 3]

/-- The 64 window numbers, in order. -/
def allWindows : List (Fin 64) := List.finRange 64

@[simp] theorem mem_allNodes (n : Fin 4) : n ∈ allNodes := by revert n; decide

@[simp] theorem mem_allSlots (j : Fin 4) : j ∈ allSlots := by revert j; decide

@[simp] theorem mem_allChannels (c : Fin 4) : c ∈ allChannels := by revert c; decide

@[simp] theorem mem_allWindows (w : Fin 64) : w ∈ allWindows := List.mem_finRange w

end Sys2Proof
end

