-- ==== Sys2Proof/Syntax.lean ====
section
/-! DEFINITION. The commands and events the part takes: one constructor of Instr per row of the opcode table. -/

namespace Sys2Proof

abbrev NodeId := Fin 4
abbrev WindowId := Fin 64
abbrev SlotId := Fin 4
abbrev ChannelId := Fin 4
abbrev Tag := Fin 32

/-- The kind of a request or of a pool operation (R23, R74). -/
inductive Kind where
  | read
  | write
deriving DecidableEq, Repr

/-- What brings device reset about: the RESET pin or power-on (R165). -/
inductive ResetCause where
  | pin
  | powerOn
deriving DecidableEq, Repr

/-- The 24 management commands (09, section 9.3). -/
inductive Cmd where
  | nop | identify | setTimers | setPolicy | getAttention | ackAttention
  | createWindow | queryWindow | queryFree
  | grant | setRights | queryGrant | lookup
  | admitNode | fenceNode | readFaultCapture | releaseFaultCapture
  | suspend | resume | revoke | retire
  | migrate | abortJob | queryJob
deriving DecidableEq, Repr

/-- A well-formed message from a node (R55, R172). -/
inductive Inbound where
  | hello (identity : Word)
  | read (tag : Tag) (addr : BitVec 40) (len : BitVec 16)
  | write (tag : Tag) (addr : BitVec 40) (len : BitVec 16) (data : List Byte)
  | revokeAck (number : Byte)
deriving DecidableEq, Repr

/-- One command or event. A management command is the write of its code to COMMAND (R151); its parameters are in
the PARAM slots, and its checks and effects are taken by `commandCompletion` (log 1). -/
inductive Instr where
  | nop
  | identify
  | setTimers
  | setPolicy
  | getAttention
  | ackAttention
  | createWindow
  | queryWindow
  | queryFree
  | grant
  | setRights
  | queryGrant
  | lookup
  | admitNode
  | fenceNode
  | readFaultCapture
  | releaseFaultCapture
  | suspend
  | resume
  | revoke
  | retire
  | migrate
  | abortJob
  | queryJob
  /-- A write to COMMAND of a code that names no command (R151). -/
  | badCommand (code : Word)
  /-- A write to a slot other than CONTROL and COMMAND (R153, R150). -/
  | paramWrite (slot : Fin 16) (value : Word)
  /-- A write to CONTROL with bit 0 set and bit 7 clear (R154). -/
  | clearOverrun (value : Word)
  /-- A write to CONTROL with bit 1 set and bit 7 clear (R154). -/
  | clearCmdDone (value : Word)
  /-- A write to CONTROL with bit 7 set (R154, R164, R171). -/
  | softReset (value : Word)
  | deviceReset (cause : ResetCause)
  /-- The rising edge of RESET with the levels of PSZ2..PSZ0 and BOOTEN (R166). -/
  | resetRelease (psz : BitVec 3) (booten : Bool)
  /-- The installation event, with the bytes the boot EEPROM acknowledges from offset 0 on (R167, R169; log 19). -/
  | bootInstall (eeprom : List Byte)
  | linkUp (node : NodeId)
  | linkDown (node : NodeId)
  | hello (node : NodeId) (identity : Word)
  | read (node : NodeId) (tag : Tag) (addr : BitVec 40) (len : BitVec 16)
  | write (node : NodeId) (tag : Tag) (addr : BitVec 40) (len : BitVec 16) (data : List Byte)
  | revokeAck (node : NodeId) (number : Byte)
  /-- Delivery of a message that R172 calls malformed. -/
  | malformedMessage (node : NodeId) (bytes : List Byte)
  | handToLinkLayer (node : NodeId)
  /-- The operation at the head of a channel ends; `dramFault` says whether the stacked DRAM could not correct or
  store it, or bears a mark from power-on there (R25; logs 7 and 9). -/
  | transactionOperationEnd (channel : ChannelId) (dramFault : Bool)
  | holdExpiry (node : NodeId)
  | revokeDeadline (window : WindowId) (node : NodeId)
  | copyReadEnd (dramFault : Bool)
  | copyWriteEnd (dramFault : Bool)
  | pacingEnd
  | commandCompletion
deriving DecidableEq, Repr

end Sys2Proof
end

