-- ==== Sys2Proof/Config.lean ====
section
/-! DEFINITION. The values the manual leaves open, as constants with no body. -/

namespace Sys2Proof

/-- The value the stacked DRAM holds at a pool byte address before the part has stored a value there, in the
power cycle of that number. Free value: R22 says "after power-on the values and marks are whatever the stacked
DRAM holds" (log 6). -/
opaque Config.powerOnByte : Nat → Nat → Byte

end Sys2Proof
end

