-- ==== Sys2Proof/Machine/Formats.lean ====
section
/-! DEFINITION. Chapter 11, the layouts that concern syntax alone: command codes and the messages from a node. -/

namespace Sys2Proof

/-- The code of each command (11, section 11.1). -/
def Cmd.code : Cmd → Word
  | .nop => 0x00#32
  | .identify => 0x01#32
  | .setTimers => 0x02#32
  | .setPolicy => 0x03#32
  | .getAttention => 0x04#32
  | .ackAttention => 0x05#32
  | .createWindow => 0x10#32
  | .queryWindow => 0x11#32
  | .queryFree => 0x12#32
  | .grant => 0x20#32
  | .setRights => 0x21#32
  | .queryGrant => 0x22#32
  | .lookup => 0x23#32
  | .admitNode => 0x30#32
  | .fenceNode => 0x31#32
  | .readFaultCapture => 0x38#32
  | .releaseFaultCapture => 0x39#32
  | .suspend => 0x40#32
  | .resume => 0x41#32
  | .revoke => 0x50#32
  | .retire => 0x51#32
  | .migrate => 0x60#32
  | .abortJob => 0x61#32
  | .queryJob => 0x62#32

/-- The 24 commands. -/
def Cmd.all : List Cmd :=
  [.nop, .identify, .setTimers, .setPolicy, .getAttention, .ackAttention, .createWindow, .queryWindow, .queryFree,
   .grant, .setRights, .queryGrant, .lookup, .admitNode, .fenceNode, .readFaultCapture, .releaseFaultCapture,
   .suspend, .resume, .revoke, .retire, .migrate, .abortJob, .queryJob]

/-- The command that a value written to COMMAND names; the whole 32-bit value counts (R171). -/
def Cmd.ofCode (code : Word) : Option Cmd := Cmd.all.find? fun c => c.code == code

/-- The bytes of a number, lowest first (chapter 11: little-endian). -/
def leBytes : Nat → Nat → List Byte
  | 0, _ => []
  | k + 1, v => BitVec.ofNat 8 v :: leBytes k (v / 256)

/-- The number that bytes spell, lowest first. -/
def leValue : List Byte → Nat
  | [] => 0
  | b :: bs => b.toNat + 256 * leValue bs

namespace Inbound

/-- The bytes of a message from a node (11, section 11.2). -/
def encode : Inbound → List Byte
  | .hello identity => [0x01, 0, 0, 0] ++ leBytes 4 identity.toNat
  | .read tag addr len => [0x02, BitVec.ofNat 8 tag.val] ++ leBytes 2 len.toNat ++ leBytes 5 addr.toNat ++ [0, 0, 0]
  | .write tag addr len data =>
    [0x03, BitVec.ofNat 8 tag.val] ++ leBytes 2 len.toNat ++ leBytes 5 addr.toNat ++ [0, 0, 0] ++ data
  | .revokeAck number => [0x04, number, 0, 0]

/-- A WRITE carries exactly as many data bytes as its length field says (R172). -/
def wellFormed : Inbound → Bool
  | .write _ _ len data => data.length == len.toNat
  | .hello _ => true
  | .read _ _ _ => true
  | .revokeAck _ => true

/-- The fields a READ and a WRITE share, read from byte 1 and the bytes from 4 on: the tag and the node address,
unless bits 7:5 of the tag byte or bytes 9 to 11 are not zero (R172). -/
def requestFields (tagByte : Byte) (rest : List Byte) : Option (Tag × BitVec 40) :=
  if h : tagByte.toNat < 32 then
    if (rest.drop 5).take 3 = [0, 0, 0] then some (⟨tagByte.toNat, h⟩, BitVec.ofNat 40 (leValue (rest.take 5))) else none
  else none

/-- The judgement of R172 on the bytes of an inbound message: the message, or none for a malformed one. -/
def parse : List Byte → Option Inbound
  | kind :: b1 :: b2 :: b3 :: rest =>
    if kind = 0x01 then
      if b1 = 0 ∧ b2 = 0 ∧ b3 = 0 ∧ rest.length = 4 then some (.hello (BitVec.ofNat 32 (leValue rest))) else none
    else if kind = 0x02 then
      if rest.length = 8 then
        (requestFields b1 rest).map fun f => .read f.1 f.2 (BitVec.ofNat 16 (leValue [b2, b3]))
      else none
    else if kind = 0x03 then
      if rest.length = 8 + leValue [b2, b3] then
        (requestFields b1 rest).map fun f => .write f.1 f.2 (BitVec.ofNat 16 (leValue [b2, b3])) (rest.drop 8)
      else none
    else if kind = 0x04 then
      if b2 = 0 ∧ b3 = 0 ∧ rest.length = 0 then some (.revokeAck b1) else none
    else none
  | _ => none

end Inbound

end Sys2Proof
end

