-- ==== Sys2Proof/Machine/State.lean ====
section
/-! DEFINITION. The records of the part as plain data, and their values while device reset is held. -/

namespace Sys2Proof.Machine

/-- A contiguous run of pool granules (02, section 2.1). -/
structure Extent where
  base : Nat
  len : Nat
deriving DecidableEq, Repr

/-- The rights of a grant (03, section 3.1). -/
inductive Rights where
  | read
  | readWrite
deriving DecidableEq, Repr

/-- The state of a grant (R36); notice number and deadline are present in REVOKING only (R35, R112). -/
inductive GrantState where
  | listed
  | revoking (notice : Byte) (deadline : Option Nat)
  | draining
deriving DecidableEq, Repr

/-- A grant record (R35). Its window is the window whose grant list holds it (log 23). -/
structure GrantRecord where
  node : NodeId
  base : Nat
  rights : Rights
  state : GrantState
  executing : Nat
  held : Nat
deriving DecidableEq, Repr

/-- The states of a window in use; MIGRATING carries the job slot that owns the window (R15). -/
inductive LiveState where
  | active
  | suspended
  | migrating (slot : SlotId)
  | retiring
deriving DecidableEq, Repr

/-- What a window record holds in every state but FREE (R1). -/
structure Live where
  state : LiveState
  home : Extent
  grants : List GrantRecord
  executing : Nat
  held : Nat
  quietPending : Bool
deriving DecidableEq, Repr

/-- A window record (R1): FREE exactly when `life` is absent. -/
structure WindowRecord where
  generation : Byte
  life : Option Live
deriving DecidableEq, Repr

/-- The link states (04, section 4.3). -/
inductive LinkState where
  | down | listening | fenced | admitted | fencing
deriving DecidableEq, Repr

/-- The auto-admit standing (R63). -/
inductive Standing where
  | opened | waiting | closed
deriving DecidableEq, Repr

/-- The fault reasons of a COMPLETION (R92). -/
inductive FaultReason where
  | fenced | badRequest | noWindow | rights | windowRetired | holdExpired | revoked | poolError
deriving DecidableEq, Repr

/-- The status of a COMPLETION, with the data of an OK read (R87, R92). -/
inductive Status where
  | ok (data : List Byte)
  | retry
  | fault (reason : FaultReason)
deriving DecidableEq, Repr

/-- The messages the part produces (04, section 4.1). -/
inductive Message where
  | welcome (admitted : Bool)
  | completion (tag : Tag) (status : Status)
  | revokeNotice (number : Byte) (base : Nat) (len : Nat)
  | admitNotice
  | fenceNotice
deriving DecidableEq, Repr

/-- A port record (R57); `handed` is the last message given to the link layer, in bytes (log 13). -/
structure Port where
  link : LinkState
  identity : Option Word
  standing : Standing
  counter : Byte
  outbound : List Message
  handed : List Byte
deriving DecidableEq, Repr

/-- The phase of an outstanding tag (R74); EXECUTING names the transaction record (R76). -/
inductive Phase where
  | held
  | executing (transaction : Nat)
deriving DecidableEq, Repr

/-- What a lookup that matches records in a tag entry (R81): the window, which with the node names the grant (log 23),
the rights the grant held at the lookup, and the window offset of the first byte. -/
structure Matched where
  window : WindowId
  rights : Rights
  offset : Nat
deriving DecidableEq, Repr

/-- An outstanding tag table entry (R74), with what the last lookup of its request recorded (R81). -/
structure TagEntry extends Matched where
  kind : Kind
  addr : Nat
  len : Nat
  data : Option (List Byte)
  phase : Phase
deriving DecidableEq, Repr

/-- Which extent an operation of a transaction reaches (R76, R139). -/
inductive Role where
  | home | old | target
deriving DecidableEq, Repr

/-- The outcome of an operation so far (R76). -/
inductive OpOutcome where
  | pending | ok | uncorrectable
deriving DecidableEq, Repr

/-- One operation of a transaction record (R76). -/
structure TransactionOp where
  role : Role
  addr : Nat
  len : Nat
  outcome : OpOutcome
deriving DecidableEq, Repr

/-- A transaction record (R76); an orphan has no tag. Its grant is that of its window and node (log 23). `id` is the
model's name for the record (log 12). -/
structure Transaction where
  id : Nat
  node : NodeId
  tag : Option Tag
  kind : Kind
  window : WindowId
  chunk : Nat
  ops : List TransactionOp
  authoritative : Role
  readData : Option (List Byte)
deriving DecidableEq, Repr

/-- A valid fault capture record (R93). -/
structure Capture where
  tag : Tag
  kind : Kind
  addr : Nat
  reason : FaultReason
deriving DecidableEq, Repr

/-- Why a request is held (R98). -/
inductive Cause where
  | suspended | chunkBusy | behind
deriving DecidableEq, Repr

/-- A hold queue entry (R96). -/
structure HoldEntry where
  tag : Tag
  window : WindowId
  chunk : Nat
  cause : Cause
  expiry : Nat
deriving DecidableEq, Repr

/-- Why a job is abandoned (R144). -/
inductive AbortReason where
  | byCommand | copyReadError | copyWriteError | mirrorWriteError
deriving DecidableEq, Repr

/-- The outcome of a finished job (R130). -/
inductive JobOutcome where
  | done
  | aborted (reason : AbortReason)
deriving DecidableEq, Repr

/-- The fields a busy or finished job slot holds (R130); the cursor is a byte offset. -/
structure Job where
  window : WindowId
  generation : Byte
  source : Extent
  target : Extent
  cursor : Nat
deriving DecidableEq, Repr

/-- A job slot (R130); the chunk-in-progress mark is clear outside COPYING. -/
inductive Slot where
  | idle
  | copying (job : Job) (mark : Bool)
  | aborting (job : Job) (reason : AbortReason)
  | drainingOld (job : Job)
  | finished (job : Job) (outcome : JobOutcome)
deriving DecidableEq, Repr

/-- The engine phase with the slot served, the chunk data and the pacing end (R132). -/
inductive EnginePhase where
  | idle
  | waiting (slot : SlotId)
  | reading (slot : SlotId)
  | writing (slot : SlotId) (data : List Byte)
  | pacing (ends : Nat)
deriving DecidableEq, Repr

/-- The Copy Engine record (R132). -/
structure Engine where
  phase : EnginePhase
  last : SlotId
deriving DecidableEq, Repr

/-- Who issued a pool operation (R23). -/
inductive Issuer where
  | transaction (id : Nat) (role : Role)
  | copy (slot : SlotId)
deriving DecidableEq, Repr

/-- A pool operation in progress (R23). -/
structure PoolOp where
  kind : Kind
  addr : Nat
  len : Nat
  data : List Byte
  issuer : Issuer
deriving DecidableEq, Repr

/-- The pool's bytes: values by address, and unreadable marks (R22). Both lists rise strictly. An address not in
`values` holds a value the part does not define (log 6). -/
structure Pool where
  values : List Host.Cell
  marks : List Nat
deriving DecidableEq, Repr

/-- The management result codes, in the order of section 9.2.1. -/
inductive ResultCode where
  | done | badCommand | badParam | noWindow | stale | wrongState | directoryFull | noSpace | overlap | mapFull
  | grantExists | noGrant | nodeState | inProgress | noJobSlot
deriving DecidableEq, Repr

/-- The Device Settings (R160). -/
structure Settings where
  holdLimit : BitVec 16
  revokeLimit : BitVec 16
  copyPacing : BitVec 8
  fenceOnRevokeTimeout : Bool
  deviceEnable : Bool
  nodeEnable : Bool
  jobEnable : Bool
  windowEnable : Bool
  commandEnable : Bool
deriving DecidableEq, Repr

/-- The boot status codes (10). -/
inductive BootCode where
  | pending | loaded | notEnabled | noDevice | badSignature | badVersion | badChecksum | badEntry
deriving DecidableEq, Repr

/-- What a BAD_ENTRY names (10). -/
inductive BootEntry where
  | settings
  | window (index : Fin 8)
deriving DecidableEq, Repr

/-- The boot status (10). -/
structure BootStatus where
  code : BootCode
  entry : Option BootEntry
deriving DecidableEq, Repr

/-- A command taken and not yet completed, with its latched parameters (R151). -/
structure Taken where
  code : Word
  params : Vector Word 8
deriving DecidableEq, Repr

/-- The part (INVENTORY.md, State). -/
structure State where
  pending : List Instr
  resetHeld : Bool
  poolCode : BitVec 3
  bootEnable : Bool
  now : Nat
  windows : Vector WindowRecord 64
  maps : Vector (List WindowId) 4
  freeList : List Extent
  ports : Vector Port 4
  tags : Vector (Vector (Option TagEntry) 32) 4
  transactions : List Transaction
  captures : Vector (Option Capture) 4
  holds : Vector (List HoldEntry) 4
  slots : Vector Slot 4
  engine : Engine
  channels : Vector (List PoolOp) 4
  pool : Pool
  powerCycle : Nat
  nextTransaction : Nat
  params : Vector Word 8
  commandSlot : Word
  errorCode : ResultCode
  err : Bool
  overrun : Bool
  booting : Bool
  cmdDone : Bool
  taken : Option Taken
  attention : Vector (BitVec 6) 73
  settings : Settings
  bootStatus : BootStatus
  maskInForce : BitVec 4
deriving DecidableEq, Repr

/-- No command or event stops the part (INVENTORY.md, Faults), so there is no fault. -/
inductive Fault where
deriving DecidableEq, Repr

/-- Refusals. -/
inductive Refusal where
  /-- A command whose meaning is not written yet; raised by exec's refused arms alone, of which there is none. Safe. -/
  | notModelled (mnemonic : String)
deriving DecidableEq, Repr

/-- A window record after device reset (R2). -/
def WindowRecord.reset : WindowRecord := { generation := 0, life := none }

/-- A port record after device reset (R57). -/
def Port.reset : Port :=
  { link := .down, identity := none, standing := .opened, counter := 0, outbound := [], handed := [] }

/-- The Device Settings after device reset (R160). -/
def Settings.reset : Settings :=
  { holdLimit := 2000, revokeLimit := 100, copyPacing := 0, fenceOnRevokeTimeout := false, deviceEnable := true,
    nodeEnable := true, jobEnable := true, windowEnable := true, commandEnable := true }

/-- The Copy Engine record after device reset (R132). -/
def Engine.reset : Engine := { phase := .idle, last := 3 }

/-- Every record at its value after device reset, with RESET still held (R165, log 3); the straps are not sampled
yet, and what depends on them stands at the smallest pool until the release (log 4). -/
def State.reset : State :=
  { pending := []
    resetHeld := true
    poolCode := 0
    bootEnable := false
    now := 0
    windows := Table.fill 64 WindowRecord.reset
    maps := Table.fill 4 []
    freeList := [{ base := 0, len := 2048 }]
    ports := Table.fill 4 Port.reset
    tags := Table.fill 4 (Table.fill 32 none)
    transactions := []
    captures := Table.fill 4 none
    holds := Table.fill 4 []
    slots := Table.fill 4 .idle
    engine := Engine.reset
    channels := Table.fill 4 []
    pool := { values := [], marks := [] }
    powerCycle := 0
    nextTransaction := 0
    params := Table.fill 8 0
    commandSlot := 0
    errorCode := .done
    err := false
    overrun := false
    booting := true
    cmdDone := false
    taken := none
    attention := Table.fill 73 0
    settings := Settings.reset
    bootStatus := { code := .pending, entry := none }
    maskInForce := 0 }

end Sys2Proof.Machine
end

