-- ==== Sys2Proof/Machine/Ops.lean ====
section
/-! DEFINITION. The named operations over the records: access, attention, messages, extents, the pool, grants, time. -/

namespace Sys2Proof.Machine

/-! ### Window and grant records -/

/-- The window record of a number (R1). -/
def State.window (s : State) (w : WindowId) : WindowRecord := Table.get s.windows w

/-- Replaces one window record. -/
def State.setWindow (s : State) (w : WindowId) (r : WindowRecord) : State :=
  { s with windows := Table.put s.windows w r }

/-- Changes what a window in use holds; a FREE window holds nothing to change (R1). -/
def State.updateLive (s : State) (w : WindowId) (f : Live → Live) : State :=
  match (s.window w).life with
  | none => s
  | some v => s.setWindow w { s.window w with life := some (f v) }

/-- The grant of a window for a node: at most one stands in its grant list (R13). -/
def Live.grant (v : Live) (n : NodeId) : Option GrantRecord := v.grants.find? fun g => g.node == n

/-- Changes the grant of a node in a window's grant list. -/
def Live.updateGrant (v : Live) (n : NodeId) (f : GrantRecord → GrantRecord) : Live :=
  { v with grants := v.grants.map fun g => if g.node = n then f g else g }

/-- The window's length in bytes (R38). -/
def Live.bytes (v : Live) : Nat := v.home.len * granuleBytes

/-- The window in use and its grant for a node. -/
def State.grant (s : State) (w : WindowId) (n : NodeId) : Option (Live × GrantRecord) :=
  match (s.window w).life with
  | none => none
  | some v => (v.grant n).map fun g => (v, g)

/-- Changes the grant of a window for a node. -/
def State.updateGrant (s : State) (w : WindowId) (n : NodeId) (f : GrantRecord → GrantRecord) : State :=
  s.updateLive w fun v => v.updateGrant n f

/-- A transaction begins under a grant: the executing counts of the grant and the window rise together (R10). -/
def State.raiseExecuting (s : State) (w : WindowId) (n : NodeId) : State :=
  s.updateLive w fun v =>
    { v.updateGrant n (fun g => { g with executing := g.executing + 1 }) with executing := v.executing + 1 }

/-- A transaction ends: the executing counts of its grant and window fall together (R10, R88). -/
def State.lowerExecuting (s : State) (w : WindowId) (n : NodeId) : State :=
  s.updateLive w fun v =>
    { v.updateGrant n (fun g => { g with executing := g.executing - 1 }) with executing := v.executing - 1 }

/-- An entry joins a hold queue: the held counts of its grant and window rise together (R11). -/
def State.raiseHeld (s : State) (w : WindowId) (n : NodeId) : State :=
  s.updateLive w fun v => { v.updateGrant n (fun g => { g with held := g.held + 1 }) with held := v.held + 1 }

/-- An entry leaves a hold queue: the held counts of its grant and window fall together (R11). -/
def State.lowerHeld (s : State) (w : WindowId) (n : NodeId) : State :=
  s.updateLive w fun v => { v.updateGrant n (fun g => { g with held := g.held - 1 }) with held := v.held - 1 }

/-! ### Maps, ports, tags, hold queues, captures, job slots -/

/-- A node's map: windows whose grants are listed in it, in order of node base (R39). -/
def State.map (s : State) (n : NodeId) : List WindowId := Table.get s.maps n

/-- Replaces a node's map. -/
def State.setMap (s : State) (n : NodeId) (m : List WindowId) : State := { s with maps := Table.put s.maps n m }

/-- A port record (R57). -/
def State.port (s : State) (n : NodeId) : Port := Table.get s.ports n

/-- Replaces a port record. -/
def State.setPort (s : State) (n : NodeId) (p : Port) : State := { s with ports := Table.put s.ports n p }

/-- The link state of a node (R56). -/
def State.link (s : State) (n : NodeId) : LinkState := (s.port n).link

/-- Changes the link state of a node. -/
def State.setLink (s : State) (n : NodeId) (l : LinkState) : State := s.setPort n { s.port n with link := l }

/-- A tag table entry: none when the tag is free (R74). -/
def State.tag (s : State) (n : NodeId) (t : Tag) : Option TagEntry := Table.get (Table.get s.tags n) t

/-- Replaces a tag table entry. -/
def State.setTag (s : State) (n : NodeId) (t : Tag) (e : Option TagEntry) : State :=
  { s with tags := Table.put s.tags n (Table.put (Table.get s.tags n) t e) }

/-- A node's hold queue, oldest first (R96). -/
def State.hold (s : State) (n : NodeId) : List HoldEntry := Table.get s.holds n

/-- Replaces a hold queue. -/
def State.setHold (s : State) (n : NodeId) (q : List HoldEntry) : State := { s with holds := Table.put s.holds n q }

/-- A node's fault capture record: none when valid is clear (R93). -/
def State.capture (s : State) (n : NodeId) : Option Capture := Table.get s.captures n

/-- Replaces a fault capture record. -/
def State.setCapture (s : State) (n : NodeId) (c : Option Capture) : State :=
  { s with captures := Table.put s.captures n c }

/-- A job slot (R130). -/
def State.slot (s : State) (j : SlotId) : Slot := Table.get s.slots j

/-- Replaces a job slot. -/
def State.setSlot (s : State) (j : SlotId) (t : Slot) : State := { s with slots := Table.put s.slots j t }

/-- Changes the engine phase (R132). -/
def State.setPhase (s : State) (p : EnginePhase) : State := { s with engine := { s.engine with phase := p } }

/-- A node's executing count: its transaction records, orphans included (R70). -/
def State.nodeExecuting (s : State) (n : NodeId) : Nat := (s.transactions.filter fun t => t.node == n).length

/-! ### The Attention Set -/

/-- The reason flags, each with its source (section 9.4). -/
inductive Flag where
  | bootDone
  | bootFailed
  | nodeUp (n : NodeId)
  | nodeChanged (n : NodeId)
  | nodeDown (n : NodeId)
  | nodeFenced (n : NodeId)
  | protocol (n : NodeId)
  | faultCaptured (n : NodeId)
  | jobDone (j : SlotId)
  | jobAborted (j : SlotId)
  | quiet (w : WindowId)
  | grantRemoved (w : WindowId)
  | revokeForced (w : WindowId)
  | retireDone (w : WindowId)
deriving DecidableEq, Repr

/-- The source number of a node (section 9.4). -/
def nodeSource (n : NodeId) : Fin 73 := ⟨1 + n.val, by omega⟩

/-- The source number of a job slot (section 9.4). -/
def jobSource (j : SlotId) : Fin 73 := ⟨5 + j.val, by omega⟩

/-- The source number of a window (section 9.4). -/
def windowSource (w : WindowId) : Fin 73 := ⟨9 + w.val, by omega⟩

/-- The source a flag belongs to. -/
def Flag.source : Flag → Fin 73
  | .bootDone | .bootFailed => 0
  | .nodeUp n | .nodeChanged n | .nodeDown n | .nodeFenced n | .protocol n | .faultCaptured n => nodeSource n
  | .jobDone j | .jobAborted j => jobSource j
  | .quiet w | .grantRemoved w | .revokeForced w | .retireDone w => windowSource w

/-- The bit of a flag in its source's reason set (11, section 11.1.1). -/
def Flag.bit : Flag → BitVec 6
  | .bootDone | .nodeUp _ | .jobDone _ | .quiet _ => 0b000001
  | .bootFailed | .nodeChanged _ | .jobAborted _ | .grantRemoved _ => 0b000010
  | .nodeDown _ | .revokeForced _ => 0b000100
  | .nodeFenced _ | .retireDone _ => 0b001000
  | .protocol _ => 0b010000
  | .faultCaptured _ => 0b100000

/-- The reasons pending on a source. -/
def State.reasons (s : State) (i : Fin 73) : BitVec 6 := Table.get s.attention i

/-- Replaces the reasons pending on a source. -/
def State.setReasons (s : State) (i : Fin 73) (r : BitVec 6) : State := { s with attention := Table.put s.attention i r }

/-- Raises a reason flag; a flag already pending stays pending (R156). -/
def State.raise (s : State) (f : Flag) : State := s.setReasons f.source (s.reasons f.source ||| f.bit)

/-- Whether a flag is pending. -/
def State.isPending (s : State) (f : Flag) : Bool := s.reasons f.source &&& f.bit != 0

/-! ### Messages -/

/-- Sends a message to a node: it joins the tail of the outbound queue, and a port in DOWN discards it (R58). -/
def State.send (s : State) (n : NodeId) (m : Message) : State :=
  if s.link n = .down then s else s.setPort n { s.port n with outbound := (s.port n).outbound ++ [m] }

/-! ### Extents and the Free Extent List -/

/-- The granules of the pool by the sampled size code (R166, R21). -/
def granulesOfCode (code : BitVec 3) : Nat :=
  match code.toNat with
  | 1 => 4096
  | 2 => 8192
  | 3 => 16384
  | 4 => 32768
  | _ => 2048

/-- The pool size in granules (R21). -/
def State.granules (s : State) : Nat := granulesOfCode s.poolCode

/-- The first pool byte of an extent (section 2.1). -/
def Extent.start (e : Extent) : Nat := e.base * granuleBytes

/-- Whether a granule lies in an extent. -/
def Extent.covers (e : Extent) (g : Nat) : Bool := e.base ≤ g && g < e.base + e.len

/-- Whether a pool byte address lies in an extent (R131). -/
def Extent.holdsAddr (e : Extent) (a : Nat) : Bool := e.start ≤ a && a < e.start + e.len * granuleBytes

/-- First fit (R29): the extent from the low end of the lowest entry long enough, and the list without it. -/
def firstFit (len : Nat) : List Extent → Option (Extent × List Extent)
  | [] => none
  | e :: rest =>
    if e.len = len then some (e, rest)
    else if len < e.len then some (⟨e.base, len⟩, ⟨e.base + len, e.len - len⟩ :: rest)
    else (firstFit len rest).map fun r => (r.1, e :: r.2)

/-- The parts of an entry that an extent inside it leaves over (R30). -/
def leftover (entry taken : Extent) : List Extent :=
  (if entry.base < taken.base then [⟨entry.base, taken.base - entry.base⟩] else []) ++
  (if taken.base + taken.len < entry.base + entry.len then
    [⟨taken.base + taken.len, entry.base + entry.len - (taken.base + taken.len)⟩] else [])

/-- Explicit allocation (R30): the list without the extent, or none when no entry holds it wholly. -/
def allocateExplicit (x : Extent) : List Extent → Option (List Extent)
  | [] => none
  | e :: rest =>
    if e.base ≤ x.base ∧ x.base + x.len ≤ e.base + e.len then some (leftover e x ++ rest)
    else (allocateExplicit x rest).map fun r => e :: r

/-- An extent put before the entries above it, merged with the first of them if they touch (R31). -/
def mergeAbove (x : Extent) : List Extent → List Extent
  | [] => [x]
  | e :: rest => if x.base + x.len = e.base then ⟨x.base, x.len + e.len⟩ :: rest else x :: e :: rest

/-- Release of an extent into the list, merged with the entries it touches (R31). -/
def release (x : Extent) : List Extent → List Extent
  | [] => [x]
  | e :: rest =>
    if e.base + e.len < x.base then e :: release x rest
    else if e.base + e.len = x.base then mergeAbove ⟨e.base, e.len + x.len⟩ rest
    else mergeAbove x (e :: rest)

/-- The largest length among the entries, or 0 (R33). -/
def largestFree (l : List Extent) : Nat := l.foldl (fun m e => max m e.len) 0

/-- The sum of all entry lengths (R33). -/
def totalFree (l : List Extent) : Nat := (l.map fun e => e.len).sum

/-- Releases an extent to the Free Extent List. -/
def State.release (s : State) (e : Extent) : State := { s with freeList := Machine.release e s.freeList }

/-! ### The pool -/

/-- The bytes of a range of the list of values stand outside it. -/
def cellsBelow (a : Nat) (l : List Host.Cell) : List Host.Cell := l.filter fun c => c.1 < a

/-- The cells from an address on. -/
def cellsFrom (a : Nat) (l : List Host.Cell) : List Host.Cell := l.filter fun c => a ≤ c.1

/-- Cells of consecutive addresses. -/
def cellsAt : Nat → List Byte → List Host.Cell
  | _, [] => []
  | a, b :: bs => (a, b) :: cellsAt (a + 1) bs

/-- The value a pool byte address holds: what was stored there, else a free value (R22, log 6). -/
def Pool.value (p : Pool) (cycle a : Nat) : Byte :=
  match p.values.find? fun c => c.1 == a with
  | some c => c.2
  | none => Config.powerOnByte cycle a

/-- The bytes a READ hands back (R24, R25). -/
def Pool.read (p : Pool) (cycle a len : Nat) : List Byte := (List.range' a len).map fun b => p.value cycle b

/-- Whether a byte bears an unreadable mark (R22). -/
def Pool.marked (p : Pool) (a : Nat) : Bool := p.marks.contains a

/-- Whether any byte of a range bears an unreadable mark (R25). -/
def Pool.anyMarked (p : Pool) (a len : Nat) : Bool := p.marks.any fun m => a ≤ m && m < a + len

/-- A WRITE that ends OK: the bytes become the data and their marks clear (R22). -/
def Pool.store (p : Pool) (a : Nat) (data : List Byte) : Pool :=
  { values := cellsBelow a p.values ++ cellsAt a data ++ cellsFrom (a + data.length) p.values
    marks := p.marks.filter fun m => m < a || a + data.length ≤ m }

/-- The marks with every byte of a range marked. -/
def markRange (marks : List Nat) (a len : Nat) : List Nat :=
  marks.filter (fun m => m < a) ++ List.range' a len ++ marks.filter (fun m => a + len ≤ m)

/-- A READ that ends UNCORRECTABLE: values unchanged, every byte addressed marked (R22). -/
def Pool.spoilRead (p : Pool) (a len : Nat) : Pool := { p with marks := markRange p.marks a len }

/-- A WRITE that ends UNCORRECTABLE or is abandoned by device reset: every byte addressed is marked and its value is
not defined, so it is no longer listed (R22, R26, log 8). -/
def Pool.spoilWrite (p : Pool) (a len : Nat) : Pool :=
  { values := cellsBelow a p.values ++ cellsFrom (a + len) p.values
    marks := markRange p.marks a len }

/-- The canonical form: addresses rise strictly in both lists. -/
def Pool.wf (p : Pool) : Bool :=
  decide (p.values.Pairwise fun c d => c.1 < d.1) && decide (p.marks.Pairwise fun m n => m < n)

/-- The channel of a pool address (R23). -/
def channelOf (a : Nat) : ChannelId := Fin.ofNat 4 (a / chunkBytes)

/-- The operations of a channel in issue order (R24). -/
def State.channel (s : State) (c : ChannelId) : List PoolOp := Table.get s.channels c

/-- Replaces the operations of a channel. -/
def State.setChannel (s : State) (c : ChannelId) (q : List PoolOp) : State :=
  { s with channels := Table.put s.channels c q }

/-- Issues a pool operation to its channel (R23, R24). -/
def State.issue (s : State) (op : PoolOp) : State :=
  s.setChannel (channelOf op.addr) (s.channel (channelOf op.addr) ++ [op])

/-- The end of a pool operation: whether it is UNCORRECTABLE, the bytes an OK READ hands back, and the state. -/
structure OpEnd where
  failed : Bool
  bytes : List Byte
  state : State
deriving DecidableEq, Repr

/-- The effect of an operation's end on the pool (R22). -/
def Pool.afterEnd (p : Pool) (op : PoolOp) (failed : Bool) : Pool :=
  match op.kind, failed with
  | .read, false => p
  | .read, true => p.spoilRead op.addr op.len
  | .write, false => p.store op.addr op.data
  | .write, true => p.spoilWrite op.addr op.len

/-- An operation at the head of a channel ends (R25): a READ of a marked byte is UNCORRECTABLE whatever the DRAM
finds, and otherwise the DRAM decides (log 9). -/
def State.endOp (s : State) (c : ChannelId) (op : PoolOp) (rest : List PoolOp) (dramFault : Bool) : OpEnd :=
  let failed := dramFault || (op.kind == .read && s.pool.anyMarked op.addr op.len)
  { failed := failed
    bytes := if op.kind = .read ∧ failed = false then s.pool.read s.powerCycle op.addr op.len else []
    state := { s.setChannel c rest with pool := s.pool.afterEnd op failed } }

/-! ### Time -/

/-- The deadlines of a window's pending revocations (R112). -/
def Live.deadlines (v : Live) : List Nat :=
  v.grants.filterMap fun g => match g.state with
    | .revoking _ deadline => deadline
    | .listed => none
    | .draining => none

/-- The deadlines of all pending revocations. -/
def State.deadlines (s : State) : List Nat :=
  allWindows.flatMap fun w => match (s.window w).life with
    | none => []
    | some v => v.deadlines

/-- The pacing end, when one is set (R138). -/
def EnginePhase.pacingEnds : EnginePhase → List Nat
  | .pacing t => [t]
  | .idle => []
  | .waiting _ => []
  | .reading _ => []
  | .writing _ _ => []

/-- Every time that is waited for: expiries, deadlines and the pacing end. -/
def State.timers (s : State) : List Nat :=
  (allNodes.flatMap fun n => (s.hold n).map fun e => e.expiry) ++ s.deadlines ++ s.engine.phase.pacingEnds

/-- The state at the moment a waited-for time is reached, unless an earlier one is still waited for (log 5). -/
def State.reach (s : State) (t : Nat) : Option State :=
  if s.timers.all fun u => t ≤ u then some { s with now := max s.now t } else none

/-- A microsecond in which no event is taken; time does not pass a waited-for time whose event is still to be taken,
nor while device reset is held (log 5). -/
def State.tick (s : State) : State :=
  if s.resetHeld || s.timers.any fun t => t ≤ s.now then s else { s with now := s.now + 1 }

/-- An event of the part: none is taken while device reset is held (R165). -/
def event (f : State → State) (s : State) : Host.Outcome State Fault Refusal :=
  .next (if s.resetHeld then s else f s)

end Sys2Proof.Machine
end

