-- ==== Sys2Proof/Machine/Operands.lean ====
section
/-! DEFINITION. Parameters and results of the management commands (R171): reading PARAM slots, packing results, the
codes of enumerated values, and the bytes of outbound messages (R172). -/

namespace Sys2Proof.Machine

/-! ### Result slots -/

/-- A number in a whole slot. -/
def slotOf (n : Nat) : Word := BitVec.ofNat 32 n

/-- A whole slot whose result is reported absent (R171). -/
def absentSlot : Word := 0xFFFFFFFF#32

/-- A 40-bit node address or a pool byte address: two slots, low 32 bits first (R171). -/
def addressSlots (a : Nat) : List Word := [slotOf a, slotOf (a / 4294967296)]

/-- Four bytes in a slot, lowest first. Bits of a packed slot that section 11.1.2 gives no content read 0 (the model's
choice, log 30): every caller packs 0 there. -/
def packBytes (b0 b1 b2 b3 : Nat) : Word :=
  slotOf (b0 % 256 + b1 % 256 * 256 + b2 % 256 * 65536 + b3 % 256 * 16777216)

/-- A byte field that is reported absent reads FFh (R171). -/
def byteOr (o : Option Nat) : Nat := o.getD 255

/-- A whole-slot field that may be reported absent. -/
def slotOr (o : Option Nat) : Word := (o.map slotOf).getD absentSlot

/-- A count in a 16-bit field reads FFFFh when it exceeds 65535 (R171). -/
def count16 (n : Nat) : Nat := min n 65535

/-- A count in a 16-bit field that may be reported absent, which reads FFFFh (R171). -/
def halfOr (o : Option Nat) : Nat := (o.map count16).getD 65535

/-- A flag in a slot: clear or off 0, set or on 1 (section 11.1.1, of the Settings flags). A yes or no result is coded
the same way, 1 for yes (the model's choice, log 31). -/
def flagSlot (b : Bool) : Word := if b then 1 else 0

/-- The results in PARAM0 and on; slots that carry no result read 0 (R152). -/
def resultSlots (rs : List Word) : Vector Word 8 :=
  #v[rs.getD 0 0, rs.getD 1 0, rs.getD 2 0, rs.getD 3 0, rs.getD 4 0, rs.getD 5 0, rs.getD 6 0, rs.getD 7 0]

/-! ### Parameters -/

/-- The number a PARAM slot holds. -/
def param (p : Vector Word 8) (i : Fin 8) : Nat := (Table.get p i).toNat

/-- A 40-bit node address in two slots; the second slot's whole value counts (R171). -/
def paramAddress (p : Vector Word 8) (lo hi : Fin 8) : Nat := param p lo + param p hi * 4294967296

/-! ### Codes of section 11.1.1 -/

def LiveState.code : LiveState → Nat
  | .active => 1
  | .suspended => 2
  | .migrating _ => 3
  | .retiring => 4

def GrantState.code : GrantState → Nat
  | .listed => 1
  | .revoking _ _ => 2
  | .draining => 3

def Rights.code : Rights → Nat
  | .read => 1
  | .readWrite => 2

/-- The rights a code names. -/
def Rights.ofCode : Nat → Option Rights
  | 1 => some .read
  | 2 => some .readWrite
  | _ => none

def LinkState.code : LinkState → Nat
  | .down => 0
  | .listening => 1
  | .fenced => 2
  | .admitted => 3
  | .fencing => 4

def Slot.code : Slot → Nat
  | .idle => 0
  | .copying _ _ => 1
  | .aborting _ _ => 2
  | .drainingOld _ => 3
  | .finished _ _ => 4

def AbortReason.code : AbortReason → Nat
  | .byCommand => 1
  | .copyReadError => 2
  | .copyWriteError => 3
  | .mirrorWriteError => 4

def JobOutcome.code : JobOutcome → Nat
  | .done => 0
  | .aborted r => r.code

def BootCode.code : BootCode → Nat
  | .pending => 0
  | .loaded => 1
  | .notEnabled => 2
  | .noDevice => 3
  | .badSignature => 4
  | .badVersion => 5
  | .badChecksum => 6
  | .badEntry => 7

def BootEntry.code : BootEntry → Nat
  | .window i => i.val
  | .settings => 0x10

def kindCode : Kind → Nat
  | .read => 0
  | .write => 1

def FaultReason.code : FaultReason → Nat
  | .fenced => 1
  | .badRequest => 2
  | .noWindow => 3
  | .rights => 4
  | .windowRetired => 5
  | .holdExpired => 6
  | .revoked => 7
  | .poolError => 8

def ResultCode.code : ResultCode → Nat
  | .done => 0x00
  | .badCommand => 0x01
  | .badParam => 0x02
  | .noWindow => 0x03
  | .stale => 0x04
  | .wrongState => 0x05
  | .directoryFull => 0x06
  | .noSpace => 0x07
  | .overlap => 0x08
  | .mapFull => 0x09
  | .grantExists => 0x0A
  | .noGrant => 0x0B
  | .nodeState => 0x0C
  | .inProgress => 0x0D
  | .noJobSlot => 0x0E

/-- The boot status as IDENTIFY reports it: code in bits 7:0, entry in bits 15:8 (section 11.1.2);
the bits above read 0 (log 30). -/
def BootStatus.word (b : BootStatus) : Word := packBytes b.code.code (byteOr (b.entry.map BootEntry.code)) 0 0

/-! ### The outcome of a command at its completion event -/

/-- What a command's completion does to the records, its result code and its results. -/
structure Completion where
  state : State
  code : ResultCode
  results : List Word
deriving DecidableEq, Repr

/-- A refusal changes no record (section 9.2.1). -/
def refuse (s : State) (c : ResultCode) (rs : List Word) : Completion := ⟨s, c, rs⟩

/-- A command carried out. -/
def carriedOut (s : State) (rs : List Word) : Completion := ⟨s, .done, rs⟩

/-- The outcome of the window check: a refusal with the results of R8, or the window. -/
inductive WindowCheck where
  | refused (code : ResultCode) (results : List Word)
  | passed (w : WindowId) (v : Live)
deriving DecidableEq, Repr

/-- The table of R7: whether a window command is taken in a state of the window. -/
def Cmd.takenIn : Cmd → LiveState → Bool
  | .queryWindow, _ => true
  | .queryGrant, _ => true
  | .grant, st => st != .retiring
  | .setRights, st => st != .retiring
  | .revoke, st => st != .retiring
  | .suspend, st => st == .active
  | .resume, st => st == .suspended
  | .retire, st => st == .active || st == .suspended
  | .migrate, st => st == .active
  | _, _ => true

/-- The window check of R6 with the results of R8. -/
def State.windowCheck (s : State) (c : Cmd) (p : Vector Word 8) : WindowCheck :=
  if h : param p 0 < 64 then
    if 255 < param p 1 then .refused .badParam []
    else
      let r := s.window ⟨param p 0, h⟩
      match r.life with
      | none => .refused .noWindow [slotOf r.generation.toNat]
      | some v =>
        if r.generation.toNat ≠ param p 1 then .refused .stale [slotOf r.generation.toNat, slotOf v.state.code]
        else if Cmd.takenIn c v.state then .passed ⟨param p 0, h⟩ v
        else .refused .wrongState [slotOf v.state.code]
  else .refused .badParam []

/-- A node parameter: a node over 3 is refused BAD_PARAM by every command that names one. -/
def nodeParam (p : Vector Word 8) (i : Fin 8) : Option NodeId :=
  if h : param p i < 4 then some ⟨param p i, h⟩ else none

/-- The part's bytes of an outbound message (R172, section 11.2). -/
def Message.encode : Message → List Byte
  | .welcome admitted => [0x81, if admitted then 1 else 0, 0, 0]
  | .completion tag (.ok data) => [0x82, BitVec.ofNat 8 tag.val, 0, 0] ++ data
  | .completion tag .retry => [0x82, BitVec.ofNat 8 tag.val, 1, 0]
  | .completion tag (.fault reason) => [0x82, BitVec.ofNat 8 tag.val, 2, BitVec.ofNat 8 reason.code]
  | .revokeNotice number base len => [0x83, number] ++ leBytes 2 len ++ leBytes 5 base ++ [0, 0, 0]
  | .admitNotice => [0x84, 0, 0, 0]
  | .fenceNotice => [0x85, 0, 0, 0]

end Sys2Proof.Machine
end

