-- ==== Sys2Proof/Machine/Grants.lean ====
section
/-! DEFINITION. Chapter 3: lookup, insertion of a grant, and the completions of GRANT, SET RIGHTS, QUERY GRANT and
LOOKUP. -/

namespace Sys2Proof.Machine

/-- A node map entry with the window and grant it refers to. -/
structure MapEntry where
  window : WindowId
  live : Live
  grant : GrantRecord
deriving DecidableEq, Repr

/-- The entry of a node for a window. -/
def State.mapEntry (s : State) (n : NodeId) (w : WindowId) : Option MapEntry :=
  (s.grant w n).map fun vg => ⟨w, vg.1, vg.2⟩

/-- A node's map in its order, with what its entries refer to (R39). -/
def State.mapEntries (s : State) (n : NodeId) : List MapEntry := (s.map n).filterMap (s.mapEntry n)

/-- Whether an entry's node range holds an address (R38). -/
def MapEntry.holds (m : MapEntry) (addr : Nat) : Bool := m.grant.base ≤ addr && addr < m.grant.base + m.live.bytes

/-- Whether an entry's node range shares an address with another range (R45 step 7). -/
def MapEntry.overlaps (m : MapEntry) (base bytes : Nat) : Bool :=
  m.grant.base < base + bytes && base < m.grant.base + m.live.bytes

/-- The one entry whose node range holds an address (R42). -/
def State.entryAt (s : State) (n : NodeId) (addr : Nat) : Option MapEntry :=
  (s.mapEntries n).find? fun m => m.holds addr

/-- A grant takes its place by node number in its window's grant list (R13, R40). -/
def insertGrant (g : GrantRecord) : List GrantRecord → List GrantRecord
  | [] => [g]
  | h :: rest => if g.node < h.node then g :: h :: rest else h :: insertGrant g rest

/-- A reference takes its place by node base in a node map (R40). -/
def insertRef (baseOf : WindowId → Nat) (w : WindowId) (base : Nat) : List WindowId → List WindowId
  | [] => [w]
  | x :: rest => if base < baseOf x then w :: x :: rest else x :: insertRef baseOf w base rest

/-- The node base of the grant a map entry refers to. -/
def State.baseOf (s : State) (n : NodeId) (w : WindowId) : Nat :=
  match s.grant w n with
  | some vg => vg.2.base
  | none => 0

/-- Makes a LISTED grant with counts 0 and inserts it in both lists (R40, R46). -/
def State.addGrant (s : State) (w : WindowId) (n : NodeId) (base : Nat) (r : Rights) : State :=
  let g : GrantRecord := { node := n, base := base, rights := r, state := .listed, executing := 0, held := 0 }
  (s.setMap n (insertRef (s.baseOf n) w base (s.map n))).updateLive w fun v =>
    { v with grants := insertGrant g v.grants }

/-- GRANT past its parameter checks (R45 steps 5 to 7, R46). -/
def placeGrant (w : WindowId) (v : Live) (n : NodeId) (base : Nat) (r : Rights) (s : State) : Completion :=
  match v.grant n with
  | some g => refuse s .grantExists ([slotOf g.state.code] ++ addressSlots g.base ++ [slotOf g.rights.code])
  | none =>
    if 32 ≤ (s.map n).length then refuse s .mapFull [slotOf (s.map n).length]
    else match (s.mapEntries n).find? fun m => m.overlaps base v.bytes with
      | some m =>
        refuse s .overlap ([slotOf m.window.val, slotOf (s.window m.window).generation.toNat] ++
          addressSlots m.grant.base ++ [slotOf (s.map n).length])
      | none =>
        carriedOut (s.addGrant w n base r)
          (addressSlots (base + v.bytes - 1) ++ [slotOf ((s.map n).length + 1), slotOf (s.window w).generation.toNat])

/-- The completion of GRANT (R45, R46). -/
def completeGrant (p : Vector Word 8) (s : State) : Completion :=
  match s.windowCheck .grant p with
  | .refused c rs => refuse s c rs
  | .passed w v =>
    match nodeParam p 2, Rights.ofCode (param p 5) with
    | none, _ => refuse s .badParam []
    | some _, none => refuse s .badParam []
    | some n, some r =>
      if nodeSpace ≤ paramAddress p 3 4 ∨ paramAddress p 3 4 % granuleBytes ≠ 0 then refuse s .badParam []
      else if nodeSpace < paramAddress p 3 4 + v.bytes then refuse s .badParam []
      else placeGrant w v n (paramAddress p 3 4) r s

/-- The completion of SET RIGHTS (R48, R49). -/
def completeSetRights (p : Vector Word 8) (s : State) : Completion :=
  match s.windowCheck .setRights p with
  | .refused c rs => refuse s c rs
  | .passed w v =>
    match nodeParam p 2, Rights.ofCode (param p 3) with
    | none, _ => refuse s .badParam []
    | some _, none => refuse s .badParam []
    | some n, some r =>
      match v.grant n with
      | none => refuse s .noGrant []
      | some g =>
        if g.state = .draining then refuse s .inProgress [slotOf g.state.code, slotOf g.rights.code]
        else
          carriedOut (s.updateGrant w n fun g => { g with rights := r })
            [slotOf g.rights.code, slotOf g.state.code, slotOf g.executing, slotOf g.held]

/-- The milliseconds to a deadline, rounded up, never 0 (R50, log 26). -/
def timeToDeadline (now deadline : Nat) : Nat := max 1 ((deadline - now + 999) / 1000)

/-- The notice number of a REVOKING grant (R35). -/
def GrantState.notice : GrantState → Option Byte
  | .revoking number _ => some number
  | .listed => none
  | .draining => none

/-- The time to deadline as QUERY GRANT reports it: 0 for none, all ones outside REVOKING (R50, section 11.1.2). -/
def deadlineSlot (now : Nat) : GrantState → Word
  | .revoking _ (some t) => slotOf (timeToDeadline now t)
  | .revoking _ none => slotOf 0
  | .listed => absentSlot
  | .draining => absentSlot

/-- The completion of QUERY GRANT (R50); bits 31:25 of P0 have no content and read 0 (the model's choice, log 30), and
bit 24 is set when a notice number is present (log 31). -/
def completeQueryGrant (p : Vector Word 8) (s : State) : Completion :=
  match s.windowCheck .queryGrant p with
  | .refused c rs => refuse s c rs
  | .passed _ v =>
    match nodeParam p 2 with
    | none => refuse s .badParam []
    | some n =>
      match v.grant n with
      | none => refuse s .noGrant []
      | some g =>
        carriedOut s
          ([packBytes g.state.code g.rights.code (byteOr (g.state.notice.map BitVec.toNat))
              (if g.state.notice.isSome then 1 else 0)] ++
            addressSlots g.base ++ addressSlots (g.base + v.bytes - 1) ++
            [deadlineSlot s.now g.state, slotOf g.executing, slotOf g.held])

/-- The job slot of a window's state, absent outside MIGRATING (R15). -/
def LiveState.jobSlot : LiveState → Option SlotId
  | .migrating j => some j
  | .active => none
  | .suspended => none
  | .retiring => none

/-- The results of LOOKUP for an entry and a window offset (R51, section 11.1.2); bits 31:24 of P1 have no content and
read 0 (the model's choice, log 30). -/
def State.lookupResults (s : State) (n : NodeId) (m : MapEntry) (offset : Nat) : List Word :=
  [packBytes m.window.val (s.window m.window).generation.toNat m.live.state.code m.grant.state.code,
    packBytes m.grant.rights.code (byteOr (m.live.state.jobSlot.map Fin.val)) (s.map n).length 0] ++
    addressSlots m.grant.base ++ addressSlots offset ++ addressSlots (m.live.home.start + offset)

/-- LOOKUP in mode ADDRESS (R51). -/
def lookupAddress (n : NodeId) (addr : Nat) (s : State) : Completion :=
  if nodeSpace ≤ addr then refuse s .badParam []
  else match s.entryAt n addr with
    | some m => carriedOut s (s.lookupResults n m (addr - m.grant.base))
    | none =>
      refuse s .noWindow ([slotOf (s.map n).length] ++
        match (s.mapEntries n).find? fun m => addr < m.grant.base with
        | some m => addressSlots m.grant.base
        | none => [absentSlot, absentSlot])

/-- LOOKUP in mode INDEX (R52). -/
def lookupIndex (n : NodeId) (index : Nat) (s : State) : Completion :=
  match (s.mapEntries n)[index]? with
  | some m => carriedOut s (s.lookupResults n m 0)
  | none => refuse s .badParam [slotOf (s.map n).length]

/-- The completion of LOOKUP (R51, R52). -/
def completeLookup (p : Vector Word 8) (s : State) : Completion :=
  match nodeParam p 0 with
  | none => refuse s .badParam []
  | some n =>
    if param p 1 = 0 then lookupAddress n (paramAddress p 2 3) s
    else if param p 1 = 1 then lookupIndex n (param p 2) s
    else refuse s .badParam []

end Sys2Proof.Machine
end

