-- ==== Sys2Proof/Machine/Transactions.lean ====
section
/-! DEFINITION. Chapter 5: the arrival checks, the beginning of execution, faults and the fault capture record. -/

namespace Sys2Proof.Machine

/-- The reasons offered to the fault capture record (R92). -/
def FaultReason.captured : FaultReason → Bool
  | .fenced => false
  | .windowRetired => false
  | .badRequest => true
  | .noWindow => true
  | .rights => true
  | .holdExpired => true
  | .revoked => true
  | .poolError => true

/-- A fault is offered to the node's capture record, which takes it when clear (R93). -/
def State.captureFault (s : State) (n : NodeId) (c : Capture) : State :=
  if c.reason.captured && (s.capture n).isNone then (s.setCapture n (some c)).raise (.faultCaptured n) else s

/-- Sends a COMPLETION of status FAULT and offers the fault for capture (R91, R92, R93). -/
def State.sendFault (s : State) (n : NodeId) (c : Capture) : State :=
  (s.send n (.completion c.tag (.fault c.reason))).captureFault n c

/-- Answers an outstanding tag with a fault and frees it (R91). -/
def State.faultTag (s : State) (n : NodeId) (t : Tag) (r : FaultReason) : State :=
  match s.tag n t with
  | none => s
  | some e => (s.setTag n t none).sendFault n ⟨t, e.kind, e.addr, r⟩

/-- The chunk of a window offset (R82). -/
def chunkOf (offset : Nat) : Nat := offset / chunkBytes

/-- The chunk of a request, from what its lookup recorded (R82). -/
def Matched.chunk (f : Matched) : Nat := chunkOf f.offset

/-- What a lookup that finds a map entry records (R81). -/
def MapEntry.found (m : MapEntry) (offset : Nat) : Matched :=
  { window := m.window, rights := m.grant.rights, offset := offset }

/-- What the checks from lookup to window state decide (R81, R82, R99). -/
inductive Verdict where
  | fault (reason : FaultReason)
  | hold (found : Matched) (cause : Cause)
  | execute (found : Matched)
deriving DecidableEq, Repr

/-- The slot's chunk-in-progress mark is set and the chunk is the one at its cursor (R82 condition 3). -/
def Slot.underCopy (t : Slot) (chunk : Nat) : Bool :=
  match t with
  | .copying job true => job.cursor == chunk * chunkBytes
  | .copying _ false => false
  | .idle => false
  | .aborting _ _ => false
  | .drainingOld _ => false
  | .finished _ _ => false

/-- Whether a request meets the chunk under copy: a WRITE of a migrating window (R82 condition 3). -/
def State.meetsCopy (s : State) (st : LiveState) (k : Kind) (chunk : Nat) : Bool :=
  match st with
  | .migrating j => k == .write && (s.slot j).underCopy chunk
  | .active => false
  | .suspended => false
  | .retiring => false

/-- Step 6: the window's state, in the order of R82; `earlier` are the entries that stand before the request. -/
def State.windowVerdict (s : State) (k : Kind) (m : MapEntry) (offset : Nat) (earlier : List HoldEntry) : Verdict :=
  if m.live.state = .retiring then .fault .windowRetired
  else if m.live.state = .suspended then .hold (m.found offset) .suspended
  else if s.meetsCopy m.live.state k (chunkOf offset) then .hold (m.found offset) .chunkBusy
  else if earlier.any fun e => e.window == m.window && e.chunk == chunkOf offset then .hold (m.found offset) .behind
  else .execute (m.found offset)

/-- Whether rights pass a request (R44). -/
def Rights.pass : Rights → Kind → Bool
  | .readWrite, _ => true
  | .read, .read => true
  | .read, .write => false

/-- Steps 4 to 6 of the arrival checks (R81, R82), which a replay runs again (R99). -/
def State.verdict (s : State) (n : NodeId) (k : Kind) (addr len : Nat) (earlier : List HoldEntry) : Verdict :=
  match s.entryAt n addr with
  | none => .fault .noWindow
  | some m =>
    if m.grant.base + m.live.bytes < addr + len then .fault .badRequest
    else if m.grant.rights.pass k then s.windowVerdict k m (addr - m.grant.base) earlier
    else .fault .rights

/-- The extents a request reaches, with their roles, and the authoritative one (R139). -/
structure Route where
  extents : List (Role × Extent)
  authoritative : Role
deriving DecidableEq, Repr

/-- The routing rule of a job slot (R139); a slot that owns no window leaves the home extent (log 24). -/
def Slot.route (t : Slot) (home : Extent) (k : Kind) (chunk : Nat) : Route :=
  match t with
  | .copying job _ =>
    if chunk * chunkBytes < job.cursor then
      match k with
      | .read => ⟨[(.target, job.target)], .target⟩
      | .write => ⟨[(.old, job.source), (.target, job.target)], .old⟩
    else ⟨[(.old, job.source)], .old⟩
  | .aborting job _ => ⟨[(.old, job.source)], .old⟩
  | .drainingOld job => ⟨[(.target, job.target)], .target⟩
  | .idle => ⟨[(.home, home)], .home⟩
  | .finished _ _ => ⟨[(.home, home)], .home⟩

/-- The extents a request of a window reaches (R84 step 1). -/
def State.route (s : State) (v : Live) (k : Kind) (chunk : Nat) : Route :=
  match v.state with
  | .migrating j => (s.slot j).route v.home k chunk
  | .active => ⟨[(.home, v.home)], .home⟩
  | .suspended => ⟨[(.home, v.home)], .home⟩
  | .retiring => ⟨[(.home, v.home)], .home⟩

/-- A request that passed its format check: its kind, node address, length and write data. -/
structure Request where
  kind : Kind
  addr : Nat
  len : Nat
  data : List Byte
deriving DecidableEq, Repr

/-- The operations of a route: pool address = extent base × 2 MiB + window offset (R43). -/
def Route.ops (r : Route) (q : Request) (offset : Nat) : List TransactionOp :=
  r.extents.map fun x => { role := x.1, addr := x.2.start + offset, len := q.len, outcome := .pending }

/-- Issues one pool operation of a transaction (R84 step 4). -/
def State.issueFor (q : Request) (id : Nat) (s : State) (o : TransactionOp) : State :=
  s.issue { kind := q.kind, addr := o.addr, len := o.len, data := q.data, issuer := .transaction id o.role }

/-- The tag entry of a request that executes: its write data is released (R84 step 5). -/
def Request.executingEntry (q : Request) (f : Matched) (id : Nat) : TagEntry :=
  { toMatched := f, kind := q.kind, addr := q.addr, len := q.len, data := none, phase := .executing id }

/-- The write data a tag entry keeps until its operations are issued (R74). -/
def Request.keptData (q : Request) : Option (List Byte) :=
  match q.kind with
  | .read => none
  | .write => some q.data

/-- The tag entry of a request that is held (R83). -/
def Request.heldEntry (q : Request) (f : Matched) : TagEntry :=
  { toMatched := f, kind := q.kind, addr := q.addr, len := q.len, data := q.keptData, phase := .held }

/-- A transaction begins execution (R84): its record, its pool operations, its tag's phase and the counts, in one
event. The two operations of a mirrored write are issued OLD first (log 10). -/
def State.beginExecution (s : State) (n : NodeId) (t : Tag) (q : Request) (f : Matched) : State :=
  match (s.window f.window).life with
  | none => s
  | some v =>
    let r := s.route v q.kind f.chunk
    let ops := r.ops q f.offset
    let record : Transaction :=
      { id := s.nextTransaction, node := n, tag := some t, kind := q.kind, window := f.window, chunk := f.chunk,
        ops := ops, authoritative := r.authoritative, readData := none }
    let made := { s with transactions := s.transactions ++ [record], nextTransaction := s.nextTransaction + 1 }
    let issued := ops.foldl (State.issueFor q s.nextTransaction) made
    (issued.setTag n t (some (q.executingEntry f s.nextTransaction))).raiseExecuting f.window n

/-- An entry joins the tail of its node's hold queue (R83, R97). -/
def State.takeHold (s : State) (n : NodeId) (t : Tag) (q : Request) (f : Matched) (c : Cause) : State :=
  let e : HoldEntry :=
    { tag := t, window := f.window, chunk := f.chunk, cause := c, expiry := s.now + s.settings.holdLimit.toNat }
  ((s.setHold n (s.hold n ++ [e])).setTag n t (some (q.heldEntry f))).raiseHeld f.window n

/-- Step 7 (R83): RETRY when the hold limit is 0 or the queue holds 8 entries, else the request is held. -/
def State.offerHold (s : State) (n : NodeId) (t : Tag) (q : Request) (f : Matched) (c : Cause) : State :=
  if s.settings.holdLimit = 0 ∨ 8 ≤ (s.hold n).length then s.send n (.completion t .retry)
  else s.takeHold n t q f c

/-- Step 3: the format check fails (R80). -/
def badFormat (addr len : Nat) : Bool := len == 0 || 256 < len || chunkBytes < addr % chunkBytes + len

/-- Steps 4 to 7 for a request whose tag was free and whose format passed (R81 to R84). -/
def State.settle (s : State) (n : NodeId) (t : Tag) (q : Request) : State :=
  match s.verdict n q.kind q.addr q.len (s.hold n) with
  | .fault r => s.sendFault n ⟨t, q.kind, q.addr, r⟩
  | .hold f c => s.offerHold n t q f c
  | .execute f => s.beginExecution n t q f

/-- The arrival of a READ or WRITE, in one event (R77 to R83). No message is delivered in DOWN (R56). -/
def State.arrive (s : State) (n : NodeId) (t : Tag) (q : Request) : State :=
  match s.link n with
  | .down => s
  | .listening => s.raise (.protocol n)
  | .fenced => s.sendFault n ⟨t, q.kind, q.addr, .fenced⟩
  | .fencing => s.sendFault n ⟨t, q.kind, q.addr, .fenced⟩
  | .admitted =>
    if (s.tag n t).isSome then s.raise (.protocol n)
    else if badFormat q.addr q.len then s.sendFault n ⟨t, q.kind, q.addr, .badRequest⟩
    else s.settle n t q

/-- A malformed message is discarded with PROTOCOL (R55); none is delivered in DOWN (R56). -/
def State.malformed (s : State) (n : NodeId) : State :=
  if s.link n = .down then s else s.raise (.protocol n)

/-- READ: a well-formed READ request arrives (R77). -/
def execRead (n : NodeId) (t : Tag) (addr : BitVec 40) (len : BitVec 16) (s : State) :
    Host.Outcome State Fault Refusal :=
  event (fun s => s.arrive n t ⟨.read, addr.toNat, len.toNat, []⟩) s

/-- WRITE: a well-formed WRITE request arrives (R77); one whose data is not as long as its length field states is
malformed (R55). -/
def execWrite (n : NodeId) (t : Tag) (addr : BitVec 40) (len : BitVec 16) (data : List Byte) (s : State) :
    Host.Outcome State Fault Refusal :=
  event (fun s =>
    if data.length = len.toNat then s.arrive n t ⟨.write, addr.toNat, len.toNat, data⟩ else s.malformed n) s

/-- The fault capture record in result slots (section 11.1.2); valid is coded 1 for set (log 31). -/
def captureResults : Option Capture → List Word
  | some c =>
    [flagSlot true, slotOf c.tag.val, slotOf (kindCode c.kind)] ++ addressSlots c.addr ++ [slotOf c.reason.code]
  | none => [flagSlot false, absentSlot, absentSlot, absentSlot, absentSlot, absentSlot]

/-- The completion of READ FAULT CAPTURE (R94). -/
def completeReadFaultCapture (p : Vector Word 8) (s : State) : Completion :=
  match nodeParam p 0 with
  | none => refuse s .badParam []
  | some n => carriedOut s (captureResults (s.capture n))

/-- The completion of RELEASE FAULT CAPTURE (R95). -/
def completeReleaseFaultCapture (p : Vector Word 8) (s : State) : Completion :=
  match nodeParam p 0 with
  | none => refuse s .badParam []
  | some n => carriedOut (s.setCapture n none) (captureResults (s.capture n))

end Sys2Proof.Machine
end

