-- ==== Sys2Proof/Machine/Holds.lean ====
section
/-! DEFINITION. Chapter 6: the replay pass, entries made hopeless, expiry, SUSPEND and RESUME; and the entry to FENCING
of chapter 4, which faults held requests. -/

namespace Sys2Proof.Machine

/-! ### Replay -/

/-- A replay pass: the state after it, and the windows of the entries that began execution and that were faulted. -/
structure Pass where
  state : State
  executed : List WindowId
  faulted : List WindowId
deriving DecidableEq, Repr

/-- The entries of a node's queue re-evaluated oldest first; `kept` are those already held again (R99). An entry held
again keeps in its tag what the lookup just made recorded, since the pass runs the checks from R81 on (log 32). An entry
whose tag is free does not arise (R96) and is left where it is (log 24). -/
def replayEntries (n : NodeId) : List HoldEntry → List HoldEntry → State → Pass
  | kept, [], s => ⟨s.setHold n kept, [], []⟩
  | kept, e :: rest, s =>
    match s.tag n e.tag with
    | none => replayEntries n (kept ++ [e]) rest s
    | some t =>
      match s.verdict n t.kind t.addr t.len kept with
      | .hold f c =>
        replayEntries n (kept ++ [{ e with cause := c }]) rest (s.setTag n e.tag (some { t with toMatched := f }))
      | .fault r =>
        let p := replayEntries n kept rest ((s.lowerHeld e.window n).faultTag n e.tag r)
        { p with faulted := e.window :: p.faulted }
      | .execute f =>
        let p := replayEntries n kept rest
          ((s.lowerHeld e.window n).beginExecution n e.tag ⟨t.kind, t.addr, t.len, t.data.getD []⟩ f)
        { p with executed := e.window :: p.executed }

/-- The replay pass over one node's hold queue (R99). -/
def State.replay (s : State) (n : NodeId) : Pass := replayEntries n [] (s.hold n) s

/-- One node's turn in the passes for a window: only a queue that holds an entry of it (R100). -/
def Pass.node (w : WindowId) (p : Pass) (n : NodeId) : Pass :=
  if (p.state.hold n).any fun e => e.window == w then
    let q := p.state.replay n
    ⟨q.state, p.executed ++ q.executed, p.faulted ++ q.faulted⟩
  else p

/-- The passes over every queue that holds an entry of a window, in node order (R100). -/
def State.replayWindow (s : State) (w : WindowId) : Pass := allNodes.foldl (Pass.node w) ⟨s, [], []⟩

/-! ### Entries made hopeless -/

/-- One held entry leaves with a fault (R91, R106). -/
def State.faultEntry (n : NodeId) (r : FaultReason) (s : State) (e : HoldEntry) : State :=
  (s.lowerHeld e.window n).faultTag n e.tag r

/-- The matching entries of a node's queue leave with a fault, oldest first (R106). -/
def State.faultHeld (s : State) (n : NodeId) (hit : HoldEntry → Bool) (r : FaultReason) : State :=
  ((s.hold n).filter hit).foldl (State.faultEntry n r) (s.setHold n ((s.hold n).filter fun e => !hit e))

/-! ### Fencing -/

/-- The fence drain ends when the node's executing count is 0 (R70). -/
def State.endFenceDrain (s : State) (n : NodeId) : State :=
  if s.link n = .fencing ∧ s.nodeExecuting n = 0 then (s.setLink n .fenced).raise (.nodeFenced n) else s

/-- Entry to FENCING: FENCE_NOTICE, the state, the held requests faulted FENCED, and the drain if nothing executes
(R69). -/
def State.enterFencing (s : State) (n : NodeId) : State :=
  (((s.send n .fenceNotice).setLink n .fencing).faultHeld n (fun _ => true) .fenced).endFenceDrain n

/-! ### Expiry -/

/-- The earliest expiry time in a queue. -/
def earliestExpiry : List HoldEntry → Option Nat
  | [] => none
  | e :: rest => match earliestExpiry rest with
    | none => some e.expiry
    | some t => some (min e.expiry t)

/-- The expiry of the entries of a node that reach their expiry times together, and the pass that follows (R102). -/
def State.expireHolds (s : State) (n : NodeId) (t : Nat) : State :=
  ((s.faultHeld n (fun e => e.expiry ≤ t) .holdExpired).replay n).state

/-- HOLD_EXPIRY (R102): an empty queue has no expiry to reach (R103). -/
def execHoldExpiry (n : NodeId) (s : State) : Host.Outcome State Fault Refusal :=
  event (fun s => match earliestExpiry (s.hold n) with
    | none => s
    | some t => match s.reach t with
      | none => s
      | some s => s.expireHolds n t) s

/-! ### SUSPEND and RESUME -/

/-- The suspension of a window (R108, R12). -/
def State.suspend (s : State) (w : WindowId) (v : Live) : State :=
  let t := s.updateLive w fun v => { v with state := .suspended, quietPending := decide (0 < v.executing) }
  if v.executing = 0 then t.raise (.quiet w) else t

/-- The completion of SUSPEND (R108); whether QUIET was raised is coded 1 for yes (the model's choice, log 31). -/
def completeSuspend (p : Vector Word 8) (s : State) : Completion :=
  match s.windowCheck .suspend p with
  | .refused c rs => refuse s c rs
  | .passed w v =>
    carriedOut (s.suspend w v) [slotOf v.executing, slotOf v.held, flagSlot (decide (v.executing = 0))]

/-- The executing count of a window; 0 when FREE (R1). -/
def State.windowExecuting (s : State) (w : WindowId) : Nat :=
  match (s.window w).life with
  | none => 0
  | some v => v.executing

/-- The end of a suspension: ACTIVE, the flag cleared, the passes (R110, R12). -/
def State.resume (s : State) (w : WindowId) : Pass :=
  (s.updateLive w fun v => { v with state := .active, quietPending := false }).replayWindow w

/-- The completion of RESUME (R110). -/
def completeResume (p : Vector Word 8) (s : State) : Completion :=
  match s.windowCheck .resume p with
  | .refused c rs => refuse s c rs
  | .passed w v =>
    let q := s.resume w
    carriedOut q.state
      [slotOf v.held, slotOf (q.executed.count w), slotOf (q.faulted.count w), slotOf (q.state.windowExecuting w)]

end Sys2Proof.Machine
end

