-- ==== Sys2Proof/Machine/Revocation.lean ====
section
/-! DEFINITION. Chapter 7: unlisting and removal of grants, REVOKE, REVOKE_ACK, deadlines, RETIRE. -/

namespace Sys2Proof.Machine

/-! ### Removal and the completion of a retirement -/

/-- A retirement completes (R126): the extent is released, the generation advances, the window is FREE. -/
def State.completeRetirement (s : State) (w : WindowId) (v : Live) : State :=
  ((s.release v.home).setWindow w { generation := (s.window w).generation + 1, life := none }).raise (.retireDone w)

/-- A RETIRING window whose grant list is empty completes its retirement (R122 step 3, R125 step 4). -/
def State.retireIfEmpty (s : State) (w : WindowId) : State :=
  match (s.window w).life with
  | none => s
  | some v => if v.state = .retiring ∧ v.grants = [] then s.completeRetirement w v else s

/-- A grant is removed from its window (R122). -/
def State.removeGrant (s : State) (w : WindowId) (n : NodeId) : State :=
  ((s.updateLive w fun v => { v with grants := v.grants.filter fun g => g.node != n }).raise
    (.grantRemoved w)).retireIfEmpty w

/-- A DRAINING grant whose executing count is 0 is removed (R122). -/
def State.removeIfDrained (s : State) (w : WindowId) (n : NodeId) : State :=
  match s.grant w n with
  | none => s
  | some vg => if vg.2.state = .draining ∧ vg.2.executing = 0 then s.removeGrant w n else s

/-- A grant is unlisted (R116, R41). -/
def State.unlist (s : State) (w : WindowId) (n : NodeId) : State :=
  (((s.setMap n ((s.map n).filter fun x => x != w)).updateGrant w n fun g => { g with state := .draining }).faultHeld n
    (fun e => e.window == w) .revoked).removeIfDrained w n

/-! ### Notices -/

/-- The notice number a grant of a window for a node holds, if it is REVOKING. -/
def State.noticeOf (s : State) (n : NodeId) (w : WindowId) : Option Byte :=
  match s.grant w n with
  | none => none
  | some vg => vg.2.state.notice

/-- Whether a REVOKING grant of the node holds a number (R72). -/
def State.numberHeld (s : State) (n : NodeId) (number : Byte) : Bool :=
  allWindows.any fun w => s.noticeOf n w == some number

/-- The first number from a value on that no REVOKING grant of the node holds (R72). -/
def State.freeNumber (s : State) (n : NodeId) : Nat → Byte → Byte
  | 0, c => c
  | k + 1, c => if s.numberHeld n c then s.freeNumber n k (c + 1) else c

/-- The number the port gives a notice (R72). -/
def State.noticeNumber (s : State) (n : NodeId) : Byte := s.freeNumber n 256 (s.port n).counter

/-- The deadline of a notice sent now (R112): none when the revoke limit is 0. -/
def State.newDeadline (s : State) : Option Nat :=
  if s.settings.revokeLimit = 0 then none else some (s.now + s.settings.revokeLimit.toNat * 1000)

/-- A REVOKE_NOTICE is sent and the grant becomes REVOKING (R114, R72). -/
def State.sendNotice (s : State) (w : WindowId) (v : Live) (n : NodeId) (g : GrantRecord) : State :=
  let number := s.noticeNumber n
  let counted := s.setPort n { s.port n with counter := number + 1 }
  (counted.send n (.revokeNotice number g.base v.home.len)).updateGrant w n fun g =>
    { g with state := .revoking number s.newDeadline }

/-- Whether a notice can be sent: the node is ADMITTED or FENCING (R113). -/
def LinkState.canBeAsked : LinkState → Bool
  | .admitted => true
  | .fencing => true
  | .down => false
  | .listening => false
  | .fenced => false

/-- A LISTED grant is withdrawn by a notice or by the shortcut (R113 to R115). -/
def State.withdraw (s : State) (w : WindowId) (v : Live) (n : NodeId) (g : GrantRecord) : State :=
  if (s.link n).canBeAsked then s.sendNotice w v n g else s.unlist w n

/-! ### REVOKE -/

/-- The state code of a grant after the shortcut: DRAINING, or REMOVED (R115). -/
def State.shortcutCode (s : State) (w : WindowId) (n : NodeId) : Nat :=
  match s.grant w n with
  | none => 4
  | some vg => vg.2.state.code

/-- The completion of REVOKE (R113 to R115); the result slots are those of log 15. -/
def completeRevoke (p : Vector Word 8) (s : State) : Completion :=
  match s.windowCheck .revoke p with
  | .refused c rs => refuse s c rs
  | .passed w v =>
    match nodeParam p 2 with
    | none => refuse s .badParam []
    | some n =>
      match v.grant n with
      | none => refuse s .noGrant []
      | some g =>
        match g.state with
        | .revoking number deadline =>
          refuse s .inProgress [slotOf g.state.code, slotOf number.toNat, deadlineSlot s.now (.revoking number deadline)]
        | .draining => refuse s .inProgress [slotOf g.state.code]
        | .listed =>
          if (s.link n).canBeAsked then
            carriedOut (s.withdraw w v n g)
              [slotOf 2, slotOf (s.noticeNumber n).toNat, slotOf s.settings.revokeLimit.toNat, slotOf g.executing,
                slotOf g.held]
          else
            carriedOut (s.withdraw w v n g)
              [slotOf ((s.withdraw w v n g).shortcutCode w n), absentSlot, slotOf g.executing]

/-! ### Acknowledgement, deadline and link events -/

/-- The window whose REVOKING grant of the node holds a number (R112, R117). -/
def State.revokingWindow (s : State) (n : NodeId) (number : Byte) : Option WindowId :=
  allWindows.find? fun w => s.noticeOf n w == some number

/-- An acknowledgement is matched by its number (R117); none is delivered in DOWN (R56). -/
def State.acknowledge (s : State) (n : NodeId) (number : Byte) : State :=
  if s.link n = .down then s
  else match s.revokingWindow n number with
    | some w => s.unlist w n
    | none => s.raise (.protocol n)

/-- REVOKE_ACK (R117). -/
def execRevokeAck (n : NodeId) (number : Byte) (s : State) : Host.Outcome State Fault Refusal :=
  event (fun s => s.acknowledge n number) s

/-- The policy fence of a forced removal (R119, R71). -/
def State.policyFence (s : State) (n : NodeId) : State :=
  if s.settings.fenceOnRevokeTimeout ∧ s.link n = .admitted then s.enterFencing n else s

/-- The expiry of a deadline (R118). -/
def State.forceRemoval (s : State) (w : WindowId) (n : NodeId) : State :=
  ((s.unlist w n).raise (.revokeForced w)).policyFence n

/-- The deadline of a window's pending revocation for a node (R112). -/
def State.deadlineOf (s : State) (w : WindowId) (n : NodeId) : Option Nat :=
  match s.grant w n with
  | none => none
  | some vg => match vg.2.state with
    | .revoking _ deadline => deadline
    | .listed => none
    | .draining => none

/-- REVOKE_DEADLINE (R118): a cancelled or absent deadline does not fire. -/
def execRevokeDeadline (w : WindowId) (n : NodeId) (s : State) : Host.Outcome State Fault Refusal :=
  event (fun s => match s.deadlineOf w n with
    | none => s
    | some t => match s.reach t with
      | none => s
      | some s => s.forceRemoval w n) s

/-- A pending revocation takes its place in ascending notice order. -/
def insertNotice (x : Byte × WindowId) : List (Byte × WindowId) → List (Byte × WindowId)
  | [] => [x]
  | y :: rest => if x.1.toNat ≤ y.1.toNat then x :: y :: rest else y :: insertNotice x rest

/-- The pending revocations of a node, in ascending notice order (R112, R120). -/
def State.pendingRevocations (s : State) (n : NodeId) : List (Byte × WindowId) :=
  (allWindows.filterMap fun w => (s.noticeOf n w).map fun number => (number, w)).foldr insertNotice []

/-- Every REVOKING grant of a node is unlisted as if acknowledged (R120). -/
def State.unlistRevoking (s : State) (n : NodeId) : State :=
  (s.pendingRevocations n).foldl (fun s x => s.unlist x.2 n) s

/-! ### RETIRE -/

/-- Step 3 of R125 for one node's grant. -/
def State.retireGrant (w : WindowId) (s : State) (n : NodeId) : State :=
  match s.grant w n with
  | none => s
  | some vg => match vg.2.state with
    | .listed => s.withdraw w vg.1 n vg.2
    | .revoking _ _ => s
    | .draining => s

/-- The retirement taken by RETIRE (R125). -/
def State.retire (s : State) (w : WindowId) : State :=
  let begun := s.updateLive w fun v => { v with state := .retiring, quietPending := false }
  let faulted := allNodes.foldl (fun s n => s.faultHeld n (fun e => e.window == w) .windowRetired) begun
  (allNodes.foldl (State.retireGrant w) faulted).retireIfEmpty w

/-- The held entries of a window, over all nodes. -/
def State.heldEntries (s : State) (w : WindowId) : Nat :=
  (allNodes.map fun n => ((s.hold n).filter fun e => e.window == w).length).sum

/-- A RETIRE outcome slot: outcome 7:0, notice 15:8, executing 31:16 (section 11.1.2). A field that the outcome does not
have is reported absent (R171, log 16). -/
def outcomeSlot (code : Nat) (notice : Option Byte) (executing : Option Nat) : Word :=
  slotOf (code + 256 * byteOr (notice.map BitVec.toNat) + 65536 * halfOr executing)

/-- RETIRE's outcome for one node's grant (R127): NONE, NOTICE or PENDING with the notice number, DRAINING with the
executing count, REMOVED. -/
def retireOutcome (before : Option GrantRecord) (after : Option (Live × GrantRecord)) : Word :=
  match before with
  | none => outcomeSlot 0 none none
  | some g =>
    match g.state, after with
    | .revoking number _, _ => outcomeSlot 2 (some number) none
    | .draining, some vg => outcomeSlot 3 none (some vg.2.executing)
    | .draining, none => outcomeSlot 4 none none
    | .listed, none => outcomeSlot 4 none none
    | .listed, some vg =>
      match vg.2.state.notice with
      | some number => outcomeSlot 1 (some number) none
      | none => outcomeSlot 3 none (some vg.2.executing)

/-- The completion of RETIRE (R124, R125, R127); whether the retirement completed is coded 1 for yes (the model's
choice, log 31). -/
def completeRetire (p : Vector Word 8) (s : State) : Completion :=
  match s.windowCheck .retire p with
  | .refused c rs => refuse s c rs
  | .passed w v =>
    let t := s.retire w
    carriedOut t
      ([flagSlot (t.window w).life.isNone, slotOf (t.window w).generation.toNat, slotOf (s.heldEntries w),
        slotOf (t.windowExecuting w)] ++ allNodes.map fun n => retireOutcome (v.grant n) (t.grant w n))

end Sys2Proof.Machine
end

