-- ==== Sys2Proof/Machine/Migration.lean ====
section
/-! DEFINITION. Chapter 8: the Copy Engine, the switch, the drains, MIGRATE, ABORT JOB and QUERY JOB; and the end of a
transaction's pool operation (chapter 5), which the engine is told of. -/

namespace Sys2Proof.Machine

/-! ### Turns -/

/-- Whether a slot is COPYING (R133). -/
def Slot.isCopying : Slot → Bool
  | .copying _ _ => true
  | .idle => false
  | .aborting _ _ => false
  | .drainingOld _ => false
  | .finished _ _ => false

/-- The first COPYING slot after the last slot served, in cyclic order (R133 step 1). -/
def State.nextSlot (s : State) : Option SlotId :=
  [s.engine.last + 1, s.engine.last + 2, s.engine.last + 3, s.engine.last].find? fun j => (s.slot j).isCopying

/-- Whether a WRITE of a window's chunk is executing, tagged or orphan and of any node (R133 step 4). -/
def State.writesChunk (s : State) (w : WindowId) (cursor : Nat) : Bool :=
  s.transactions.any fun t => t.kind == .write && t.window == w && t.chunk * chunkBytes == cursor

/-- The copy read of a job's chunk (R135). -/
def copyRead (j : SlotId) (job : Job) : PoolOp :=
  { kind := .read, addr := job.source.start + job.cursor, len := chunkBytes, data := [], issuer := .copy j }

/-- The copy write of a job's chunk (R135). -/
def copyWrite (j : SlotId) (job : Job) (data : List Byte) : PoolOp :=
  { kind := .write, addr := job.target.start + job.cursor, len := chunkBytes, data := data, issuer := .copy j }

/-- The engine issues its copy read (R135). -/
def State.issueCopyRead (s : State) (j : SlotId) (job : Job) : State := (s.issue (copyRead j job)).setPhase (.reading j)

/-- The engine issues its copy write (R135). -/
def State.issueCopyWrite (s : State) (j : SlotId) (job : Job) (data : List Byte) : State :=
  (s.issue (copyWrite j job data)).setPhase (.writing j data)

/-- A marked chunk is read at once, or the engine waits for its executing writes (R133 step 4, R134). -/
def State.readOrWait (s : State) (j : SlotId) (job : Job) : State :=
  if s.writesChunk job.window job.cursor then s.setPhase (.waiting j) else s.issueCopyRead j job

/-- The engine, IDLE, takes a turn if a slot is COPYING (R133). -/
def State.startTurn (s : State) : State :=
  match s.nextSlot with
  | none => s
  | some j => match s.slot j with
    | .copying job _ =>
      ({ s.setSlot j (.copying job true) with engine := { s.engine with last := j } }).readOrWait j job
    | .idle => s
    | .aborting _ _ => s
    | .drainingOld _ => s
    | .finished _ _ => s

/-- The end of a turn in which a copy read was issued: pacing, or a new turn at once (R138). -/
def State.endTurn (s : State) : State :=
  if s.settings.copyPacing = 0 then (s.setPhase .idle).startTurn
  else s.setPhase (.pacing (s.now + s.settings.copyPacing.toNat))

/-- PACING_END (R138). -/
def execPacingEnd (s : State) : Host.Outcome State Fault Refusal :=
  event (fun s => match s.engine.phase with
    | .pacing t => match s.reach t with
      | none => s
      | some s => (s.setPhase .idle).startTurn
    | .idle => s
    | .waiting _ => s
    | .reading _ => s
    | .writing _ _ => s) s

/-! ### Drains -/

/-- Whether a transaction touches an extent (R131). -/
def Transaction.touches (t : Transaction) (e : Extent) : Bool := t.ops.any fun o => e.holdsAddr o.addr

/-- The number of transactions touching an extent (R148). -/
def State.touching (s : State) (e : Extent) : Nat := (s.transactions.filter fun t => t.touches e).length

/-- Whether a copy operation of a slot is in progress (R145). -/
def EnginePhase.copiesFor (p : EnginePhase) (j : SlotId) : Bool :=
  match p with
  | .reading k => k == j
  | .writing k _ => k == j
  | .idle => false
  | .waiting _ => false
  | .pacing _ => false

/-- A window leaves MIGRATING when its slot reaches FINISHED (R15). -/
def Live.endMigration (j : SlotId) (v : Live) : Live :=
  if v.state = .migrating j then { v with state := .active } else v

/-- A slot reaches FINISHED and gives up its spare extent (R142, R145). -/
def State.finish (s : State) (j : SlotId) (job : Job) (outcome : JobOutcome) (spare : Extent) (f : Flag) : State :=
  ((((s.release spare).setSlot j (.finished job outcome)).updateLive job.window (Live.endMigration j))).raise f

/-- The drain of a slot's spare extent is looked at and ends when nothing touches it (R142, R145). -/
def State.lookDrain (s : State) (j : SlotId) : State :=
  match s.slot j with
  | .drainingOld job => if s.touching job.source = 0 then s.finish j job .done job.source (.jobDone j) else s
  | .aborting job reason =>
    if s.touching job.target = 0 ∧ s.engine.phase.copiesFor j = false then
      s.finish j job (.aborted reason) job.target (.jobAborted j)
    else s
  | .idle => s
  | .copying _ _ => s
  | .finished _ _ => s

/-! ### Abort and switch -/

/-- The turn of a slot that is WAITING ends at once, and a new turn may begin (R144 step 2). -/
def State.endWaiting (s : State) (j : SlotId) : State :=
  if s.engine.phase = .waiting j then (s.setPhase .idle).startTurn else s

/-- A slot enters ABORTING from COPYING (R144). -/
def State.enterAborting (s : State) (j : SlotId) (reason : AbortReason) : State :=
  match s.slot j with
  | .copying job mark =>
    let turned := (s.setSlot j (.aborting job reason)).endWaiting j
    let replayed := if mark then (turned.replayWindow job.window).state else turned
    replayed.lookDrain j
  | .idle => s
  | .aborting _ _ => s
  | .drainingOld _ => s
  | .finished _ _ => s

/-- The switch: the window's home becomes the target, and the old extent drains (R141). -/
def State.switch (s : State) (j : SlotId) (job : Job) : State :=
  (((s.updateLive job.window fun v => { v with home := job.target }).setSlot j (.drainingOld job))).lookDrain j

/-- The cursor has risen: the mark clears, and the switch is taken at the window's end (R137). -/
def State.afterChunk (s : State) (j : SlotId) (job : Job) : State :=
  if job.cursor = job.source.len * granuleBytes then s.switch j job else s.setSlot j (.copying job false)

/-! ### The ends of copy operations -/

/-- A channel whose head operation is the engine's for a slot, with what follows it (R24). -/
structure CopyHead where
  channel : ChannelId
  op : PoolOp
  rest : List PoolOp
deriving DecidableEq, Repr

/-- The engine's copy operation, when it is the next its channel ends (R24). -/
def State.copyHead (s : State) (j : SlotId) : Option CopyHead :=
  allChannels.findSome? fun c => match s.channel c with
    | [] => none
    | op :: rest => if op.issuer = .copy j then some ⟨c, op, rest⟩ else none

/-- A turn of a slot that entered ABORTING meanwhile ends with its copy operation (R135, R137). -/
def State.endAbortedTurn (s : State) (j : SlotId) : State := s.endTurn.lookDrain j

/-- A copy operation of a COPYING slot ended UNCORRECTABLE (R135, R137, log 27). -/
def State.copyFailed (s : State) (j : SlotId) (reason : AbortReason) : State :=
  ((s.setPhase .idle).enterAborting j reason).endTurn

/-- The copy read ended (R135). -/
def State.copyReadEnded (j : SlotId) (r : OpEnd) : State :=
  match r.state.slot j with
  | .copying job _ =>
    if r.failed then r.state.copyFailed j .copyReadError else r.state.issueCopyWrite j job r.bytes
  | .idle => r.state.endAbortedTurn j
  | .aborting _ _ => r.state.endAbortedTurn j
  | .drainingOld _ => r.state.endAbortedTurn j
  | .finished _ _ => r.state.endAbortedTurn j

/-- COPY_READ_END (R135). -/
def execCopyReadEnd (dramFault : Bool) (s : State) : Host.Outcome State Fault Refusal :=
  event (fun s => match s.engine.phase with
    | .reading j => match s.copyHead j with
      | none => s
      | some h => State.copyReadEnded j (s.endOp h.channel h.op h.rest dramFault)
    | .idle => s
    | .waiting _ => s
    | .writing _ _ => s
    | .pacing _ => s) s

/-- The copy write ended (R137). -/
def State.copyWriteEnded (j : SlotId) (r : OpEnd) : State :=
  match r.state.slot j with
  | .copying job _ =>
    if r.failed then r.state.copyFailed j .copyWriteError
    else
      (((r.state.setPhase .idle).afterChunk j { job with cursor := job.cursor + chunkBytes }).replayWindow
        job.window).state.endTurn
  | .idle => r.state.endAbortedTurn j
  | .aborting _ _ => r.state.endAbortedTurn j
  | .drainingOld _ => r.state.endAbortedTurn j
  | .finished _ _ => r.state.endAbortedTurn j

/-- COPY_WRITE_END (R137). -/
def execCopyWriteEnd (dramFault : Bool) (s : State) : Host.Outcome State Fault Refusal :=
  event (fun s => match s.engine.phase with
    | .writing j _ => match s.copyHead j with
      | none => s
      | some h => State.copyWriteEnded j (s.endOp h.channel h.op h.rest dramFault)
    | .idle => s
    | .waiting _ => s
    | .reading _ => s
    | .pacing _ => s) s

/-! ### The end of a transaction -/

/-- The engine, WAITING for a slot, issues its copy read when the last write of the chunk has ended (R134). -/
def State.resumeWaiting (s : State) (j : SlotId) : State :=
  if s.engine.phase = .waiting j then
    match s.slot j with
    | .copying job _ => s.readOrWait j job
    | .idle => s
    | .aborting _ _ => s
    | .drainingOld _ => s
    | .finished _ _ => s
  else s

/-- The engine is told of the end of a transaction on a window that a job slot names (R88). -/
def State.tellEngine (s : State) (w : WindowId) : State :=
  match (s.window w).life with
  | none => s
  | some v => match v.state with
    | .migrating j => (s.resumeWaiting j).lookDrain j
    | .active => s
    | .suspended => s
    | .retiring => s

/-- QUIET when the executing count of a window has come to 0 with its quiet-pending flag set (R12). -/
def State.tellDirectory (s : State) (w : WindowId) : State :=
  match (s.window w).life with
  | none => s
  | some v =>
    if v.executing = 0 ∧ v.quietPending then
      (s.updateLive w fun v => { v with quietPending := false }).raise (.quiet w)
    else s

/-- An operation's outcome as the authoritative one sets the status (R87). -/
def Transaction.failed (t : Transaction) : Bool :=
  t.ops.any fun o => o.role == t.authoritative && o.outcome == .uncorrectable

/-- The COMPLETION of a tagged transaction (R87). -/
def State.completeTag (s : State) (t : Transaction) (tag : Tag) : State :=
  if t.failed then s.faultTag t.node tag .poolError
  else (s.send t.node (.completion tag (.ok (t.readData.getD [])))).setTag t.node tag none

/-- A transaction ends (R87, R88), or an orphan does (R90). -/
def State.endTransaction (s : State) (t : Transaction) : State :=
  let answered := match t.tag with
    | none => s
    | some tag => s.completeTag t tag
  let discarded := { answered with transactions := answered.transactions.filter fun u => u.id != t.id }
  ((((discarded.lowerExecuting t.window t.node).tellDirectory t.window).removeIfDrained t.window t.node).endFenceDrain
    t.node).tellEngine t.window

/-- An operation takes its outcome (R86). -/
def TransactionOp.ended (role : Role) (failed : Bool) (o : TransactionOp) : TransactionOp :=
  if o.role = role then { o with outcome := if failed then .uncorrectable else .ok } else o

/-- A transaction record after one of its operations ended; an OK READ keeps its bytes (R86). -/
def Transaction.afterOp (t : Transaction) (role : Role) (failed : Bool) (bytes : List Byte) : Transaction :=
  { t with
    ops := t.ops.map (TransactionOp.ended role failed)
    readData := if t.kind = .read ∧ failed = false then some bytes else t.readData }

/-- Whether a transaction is a mirrored write (R84, R140). -/
def Transaction.mirrored (t : Transaction) : Bool := t.kind == .write && t.ops.length == 2

/-- A mirror write of a window that ended UNCORRECTABLE aborts the job that is COPYING it (R140). -/
def State.mirrorFailed (s : State) (w : WindowId) : State :=
  match (s.window w).life with
  | none => s
  | some v => match v.state with
    | .migrating j => s.enterAborting j .mirrorWriteError
    | .active => s
    | .suspended => s
    | .retiring => s

/-- An operation of a transaction ended (R86); the engine hears of a TARGET outcome first (log 11). -/
def State.operationEnded (s : State) (t : Transaction) (role : Role) (r : OpEnd) : State :=
  let u := t.afterOp role r.failed r.bytes
  let noted := { s with transactions := s.transactions.map fun x => if x.id = t.id then u else x }
  let told := if r.failed && t.mirrored && role == .target then noted.mirrorFailed t.window else noted
  if u.ops.any fun o => o.outcome == .pending then told else told.endTransaction u

/-- TRANSACTION_OPERATION_END (R86): the operation at the head of a channel (R24), when a transaction issued it. -/
def execTransactionOperationEnd (c : ChannelId) (dramFault : Bool) (s : State) : Host.Outcome State Fault Refusal :=
  event (fun s => match s.channel c with
    | [] => s
    | op :: rest => match op.issuer with
      | .copy _ => s
      | .transaction id role =>
        match s.transactions.find? fun t => t.id == id with
        | none => s
        | some t =>
          let r := s.endOp c op rest dramFault
          r.state.operationEnded t role r) s

/-! ### MIGRATE, ABORT JOB, QUERY JOB -/

/-- The lowest-numbered IDLE slot (R147). -/
def State.idleSlot (s : State) : Option SlotId := allSlots.find? fun j => s.slot j == .idle

/-- An allocation by placement code: first fit, or explicit at a base (R29, R30). -/
def allocate (placement base len : Nat) (l : List Extent) : Option (Extent × List Extent) :=
  if placement = 0 then firstFit len l
  else (allocateExplicit ⟨base, len⟩ l).map fun r => (⟨base, len⟩, r)

/-- The migration of a window begins (R147). -/
def State.migrate (s : State) (w : WindowId) (v : Live) (j : SlotId) (target : Extent) (free : List Extent) : State :=
  let job : Job :=
    { window := w, generation := (s.window w).generation, source := v.home, target := target, cursor := 0 }
  let begun := (({ s with freeList := free }).setSlot j (.copying job false)).updateLive w fun v =>
    { v with state := .migrating j }
  if begun.engine.phase = .idle then begun.startTurn else begun

/-- The completion of MIGRATE (R147). -/
def completeMigrate (p : Vector Word 8) (s : State) : Completion :=
  match s.windowCheck .migrate p with
  | .refused c rs => refuse s c rs
  | .passed w v =>
    if 1 < param p 2 then refuse s .badParam []
    else if param p 2 = 1 ∧ s.granules < param p 3 + v.home.len then refuse s .badParam []
    else match s.idleSlot with
      | none => refuse s .noJobSlot (allSlots.map fun j => slotOf (s.slot j).code)
      | some j =>
        match allocate (param p 2) (param p 3) v.home.len s.freeList with
        | none =>
          if param p 2 = 0 then refuse s .noSpace [slotOf (largestFree s.freeList)] else refuse s .overlap []
        | some x =>
          carriedOut (s.migrate w v j x.1 x.2)
            [slotOf j.val, slotOf x.1.base, slotOf x.1.len, slotOf (s.window w).generation.toNat]

/-- A job slot parameter: a slot over 3 is refused BAD_PARAM (R143, R148). -/
def slotParam (p : Vector Word 8) (i : Fin 8) : Option SlotId :=
  if h : param p i < 4 then some ⟨param p i, h⟩ else none

/-- Whether a slot is FINISHED. -/
def Slot.isFinished : Slot → Bool
  | .finished _ _ => true
  | .idle => false
  | .copying _ _ => false
  | .aborting _ _ => false
  | .drainingOld _ => false

/-- The completion of ABORT JOB (R143); the cursor is reported in chunks (log 25), and whether the drain ended is coded
1 for yes (the model's choice, log 31). -/
def completeAbortJob (p : Vector Word 8) (s : State) : Completion :=
  match slotParam p 0 with
  | none => refuse s .badParam []
  | some j => match s.slot j with
    | .copying job _ =>
      let t := s.enterAborting j .byCommand
      carriedOut t
        [slotOf job.window.val, slotOf job.generation.toNat, slotOf (job.cursor / chunkBytes),
          flagSlot (t.slot j).isFinished]
    | .aborting job reason => refuse s .inProgress [slotOf (Slot.aborting job reason).code, slotOf reason.code]
    | .idle => refuse s .wrongState [slotOf Slot.idle.code]
    | .drainingOld job => refuse s .wrongState [slotOf (Slot.drainingOld job).code]
    | .finished job outcome => refuse s .wrongState [slotOf (Slot.finished job outcome).code, slotOf outcome.code]

/-- The job a slot holds in every state but IDLE (R130). -/
def Slot.job : Slot → Option Job
  | .idle => none
  | .copying job _ => some job
  | .aborting job _ => some job
  | .drainingOld job => some job
  | .finished job _ => some job

/-- The chunk-in-progress mark (R130). -/
def Slot.mark : Slot → Bool
  | .copying _ mark => mark
  | .idle => false
  | .aborting _ _ => false
  | .drainingOld _ => false
  | .finished _ _ => false

/-- The reason in ABORTING, the outcome in FINISHED, absent otherwise (R148). -/
def Slot.reasonCode : Slot → Option Nat
  | .aborting _ reason => some reason.code
  | .finished _ outcome => some outcome.code
  | .idle => none
  | .copying _ _ => none
  | .drainingOld _ => none

/-- The spare extent of a busy slot (R131). -/
def Slot.spare : Slot → Option Extent
  | .copying job _ => some job.target
  | .aborting job _ => some job.target
  | .drainingOld job => some job.source
  | .idle => none
  | .finished _ _ => none

/-- The engine phase for a slot: NOT_SERVED 0, WAITING 1, READING 2, WRITING 3 (R148). -/
def EnginePhase.codeFor (p : EnginePhase) (j : SlotId) : Nat :=
  match p with
  | .waiting k => if k = j then 1 else 0
  | .reading k => if k = j then 2 else 0
  | .writing k _ => if k = j then 3 else 0
  | .idle => 0
  | .pacing _ => 0

/-- A slot's record in result slots P1 to P6 (section 11.1.2): absent in IDLE (R148). -/
def jobResults : Option Job → List Word
  | some job =>
    [packBytes job.window.val job.generation.toNat 0 0, slotOf job.source.base, slotOf job.source.len,
      slotOf job.target.base, slotOf job.target.len, slotOf (job.cursor / chunkBytes)]
  | none => [packBytes 255 255 0 0, absentSlot, absentSlot, absentSlot, absentSlot, absentSlot]

/-- The completion of QUERY JOB (R148); the bits of P0 and P1 that have no content read 0 (log 30). -/
def completeQueryJob (p : Vector Word 8) (s : State) : Completion :=
  match slotParam p 0 with
  | none => refuse s .badParam []
  | some j =>
    carriedOut s
      ([packBytes (s.slot j).code (s.engine.phase.codeFor j) (byteOr (s.slot j).reasonCode)
          (if (s.slot j).mark then 1 else 0)] ++
        jobResults (s.slot j).job ++ [slotOr ((s.slot j).spare.map s.touching)])

end Sys2Proof.Machine
end

