-- ==== Sys2Proof/Machine/Directory.lean ====
section
/-! DEFINITION. Chapters 1 and 2: the completions of CREATE WINDOW, QUERY WINDOW and QUERY FREE. -/

namespace Sys2Proof.Machine

/-- A window just made (R17). -/
def Live.fresh (home : Extent) : Live :=
  { state := .active, home := home, grants := [], executing := 0, held := 0, quietPending := false }

/-- The lowest-numbered FREE window (R17). -/
def State.freeWindow (s : State) : Option WindowId := allWindows.find? fun w => (s.window w).life.isNone

/-- Makes a window of an extent just allocated; its generation is kept (R17, R4). -/
def State.makeWindow (s : State) (w : WindowId) (home : Extent) (free : List Extent) : State :=
  ({ s with freeList := free }).setWindow w { s.window w with life := some (Live.fresh home) }

/-- The completion of CREATE WINDOW (R16, R17). -/
def completeCreateWindow (p : Vector Word 8) (s : State) : Completion :=
  if param p 0 = 0 ∨ 4096 < param p 0 then refuse s .badParam []
  else if 1 < param p 1 then refuse s .badParam []
  else if param p 1 = 1 ∧ s.granules < param p 2 + param p 0 then refuse s .badParam []
  else match s.freeWindow with
    | none => refuse s .directoryFull []
    | some w =>
      match allocate (param p 1) (param p 2) (param p 0) s.freeList with
      | none => if param p 1 = 0 then refuse s .noSpace [] else refuse s .overlap []
      | some x =>
        carriedOut (s.makeWindow w x.1 x.2)
          [slotOf w.val, slotOf (s.window w).generation.toNat, slotOf x.1.base, slotOf x.1.len]

/-- The grant state of a node in a window's grant list: NONE 0, LISTED 1, REVOKING 2, DRAINING 3 (R19). -/
def Live.grantCode (v : Live) (n : NodeId) : Nat :=
  match v.grant n with
  | none => 0
  | some g => g.state.code

/-- The completion of QUERY WINDOW (R19); bits 31:9 of P7 read 0 (log 30). -/
def completeQueryWindow (p : Vector Word 8) (s : State) : Completion :=
  match s.windowCheck .queryWindow p with
  | .refused c rs => refuse s c rs
  | .passed w v =>
    carriedOut s
      [slotOf v.state.code, slotOf (s.window w).generation.toNat, slotOf v.home.base, slotOf v.home.len,
        packBytes (v.grantCode 0) (v.grantCode 1) (v.grantCode 2) (v.grantCode 3),
        slotOf v.executing, slotOf v.held,
        packBytes (byteOr (v.state.jobSlot.map Fin.val)) (if v.quietPending then 1 else 0) 0 0]

/-- The completion of QUERY FREE (R33). -/
def completeQueryFree (p : Vector Word 8) (s : State) : Completion :=
  let figures := [slotOf s.freeList.length, slotOf (totalFree s.freeList), slotOf (largestFree s.freeList)]
  match s.freeList[param p 0]? with
  | some e => carriedOut s (figures ++ [slotOf e.base, slotOf e.len])
  | none => refuse s .badParam figures

end Sys2Proof.Machine
end

