-- ==== Sys2Proof/Machine/Links.lean ====
section
/-! DEFINITION. Chapter 4: link events, HELLO, the outbound queue, ADMIT NODE and FENCE NODE. -/

namespace Sys2Proof.Machine

/-- LINK_UP (R60): a link up is reported for a port in DOWN alone (R54). -/
def execLinkUp (n : NodeId) (s : State) : Host.Outcome State Fault Refusal :=
  event (fun s => if s.link n = .down then s.setLink n .listening else s) s

/-! ### Restart and link loss -/

/-- A transaction of the node loses its tag and becomes an orphan (R89). -/
def Transaction.orphanOf (n : NodeId) (t : Transaction) : Transaction :=
  if t.node = n then { t with tag := none } else t

/-- The node's tags are abandoned: every entry is free, and executing transactions become orphans (R89). -/
def State.abandonTags (s : State) (n : NodeId) : State :=
  { s with
    tags := Table.put s.tags n (Table.fill 32 none)
    transactions := s.transactions.map (Transaction.orphanOf n) }

/-- The node's hold queue is emptied without completions (R107). -/
def State.dropHolds (s : State) (n : NodeId) : State :=
  (s.hold n).foldl (fun s e => s.lowerHeld e.window n) (s.setHold n [])

/-- Messages still in the outbound queue are discarded (R58). -/
def State.clearOutbound (s : State) (n : NodeId) : State := s.setPort n { s.port n with outbound := [] }

/-- What a restart and a link down have in common (R65 steps 1 and 2, R66 steps 1 and 2). -/
def State.dropNode (s : State) (n : NodeId) : State :=
  (((s.clearOutbound n).abandonTags n).dropHolds n).unlistRevoking n

/-- LINK_DOWN (R66): from whichever state other than DOWN. -/
def execLinkDown (n : NodeId) (s : State) : Host.Outcome State Fault Refusal :=
  event (fun s =>
    if s.link n = .down then s else ((s.dropNode n).raise (.nodeDown n)).setLink n .down) s

/-! ### HELLO -/

/-- NODE_UP, NODE_CHANGED and the recorded identity (R62). -/
def State.recordIdentity (s : State) (n : NodeId) (identity : Word) : State :=
  let up := s.raise (.nodeUp n)
  let told := match (s.port n).identity with
    | none => up
    | some known => if known = identity then up else up.raise (.nodeChanged n)
  told.setPort n { told.port n with identity := some identity }

/-- Whether the mask in force has the node's bit set (R63). -/
def State.inMask (s : State) (n : NodeId) : Bool := s.maskInForce.getLsbD n.val

/-- Whether a HELLO is admitted by the mask in force (R63): an OPEN standing after the installation. -/
def State.autoAdmits (s : State) (n : NodeId) : Bool :=
  (s.port n).standing == .opened && !s.booting && s.inMask n

/-- The standing after a HELLO (R63). -/
def Standing.afterHello (st : Standing) (booting : Bool) : Standing :=
  match st with
  | .opened => if booting then .waiting else .closed
  | .waiting => .waiting
  | .closed => .closed

/-- The standing is updated by a HELLO (R63). -/
def State.updateStanding (s : State) (n : NodeId) : State :=
  s.setPort n { s.port n with standing := (s.port n).standing.afterHello s.booting }

/-- The first HELLO of a link (R61). -/
def State.firstHello (s : State) (n : NodeId) (identity : Word) : State :=
  let admitted := s.autoAdmits n
  (((s.recordIdentity n identity).updateStanding n).setLink n (if admitted then .admitted else .fenced)).send n
    (.welcome admitted)

/-- A node restart (R65). -/
def State.restart (s : State) (n : NodeId) (identity : Word) : State :=
  (((((s.dropNode n).recordIdentity n identity).updateStanding n).setLink n .fenced).send n (.welcome false))

/-- A well-formed HELLO by the link state (R56); none is delivered in DOWN. -/
def State.hello (s : State) (n : NodeId) (identity : Word) : State :=
  match s.link n with
  | .down => s
  | .listening => s.firstHello n identity
  | .fenced => s.restart n identity
  | .admitted => s.restart n identity
  | .fencing => s.restart n identity

/-- HELLO (R61, R65). -/
def execHello (n : NodeId) (identity : Word) (s : State) : Host.Outcome State Fault Refusal :=
  event (fun s => s.hello n identity) s

/-! ### Messages in bytes and the outbound queue -/

/-- A well-formed message goes to its owner (R56). -/
def State.deliver (s : State) (n : NodeId) : Inbound → State
  | .hello identity => s.hello n identity
  | .read t addr len => s.arrive n t ⟨.read, addr.toNat, len.toNat, []⟩
  | .write t addr len data => s.arrive n t ⟨.write, addr.toNat, len.toNat, data⟩
  | .revokeAck number => s.acknowledge n number

/-- MALFORMED_MESSAGE (R55): bytes that R172 calls malformed are discarded with PROTOCOL; bytes of a well-formed
message are not this event and go to their owner (log 20). -/
def execMalformedMessage (n : NodeId) (bytes : List Byte) (s : State) : Host.Outcome State Fault Refusal :=
  event (fun s => match Inbound.parse bytes with
    | none => s.malformed n
    | some m => s.deliver n m) s

/-- HAND_TO_LINK_LAYER (R58): the message at the head of the queue leaves the port. -/
def execHandToLinkLayer (n : NodeId) (s : State) : Host.Outcome State Fault Refusal :=
  event (fun s => match (s.port n).outbound with
    | [] => s
    | m :: rest => s.setPort n { s.port n with outbound := rest, handed := m.encode }) s

/-! ### ADMIT NODE and FENCE NODE -/

/-- Link state, identity-present bit and identity in result slots (section 11.1.2, log 14); bits 31:9 of P0 read 0 (log
30), and bit 8 is set when an identity is recorded (log 31). -/
def State.portResults (s : State) (n : NodeId) : List Word :=
  [packBytes (s.link n).code (if (s.port n).identity.isSome then 1 else 0) 0 0, (s.port n).identity.getD absentSlot]

/-- The completion of ADMIT NODE (R67). -/
def completeAdmitNode (p : Vector Word 8) (s : State) : Completion :=
  match nodeParam p 0 with
  | none => refuse s .badParam []
  | some n =>
    if s.link n = .fenced then
      let t := (s.setLink n .admitted).send n .admitNotice
      carriedOut t (t.portResults n)
    else refuse s .nodeState (s.portResults n)

/-- The completion of FENCE NODE (R68): the executing count is that at entry. -/
def completeFenceNode (p : Vector Word 8) (s : State) : Completion :=
  match nodeParam p 0 with
  | none => refuse s .badParam []
  | some n =>
    if s.link n = .admitted then
      let t := s.enterFencing n
      carriedOut t (t.portResults n ++ [slotOf (s.nodeExecuting n)])
    else refuse s .nodeState (s.portResults n)

end Sys2Proof.Machine
end

