-- ==== Sys2Proof/Machine/Boot.lean ====
section
/-! DEFINITION. Chapter 10: device reset, the release, the boot image (R167, R168, R173) and its installation. -/

namespace Sys2Proof.Machine

/-! ### Device reset and release -/

/-- The pool after the operations in progress are abandoned: the bytes of each WRITE are marked (R26). -/
def Pool.abandon (p : Pool) (op : PoolOp) : Pool :=
  match op.kind with
  | .read => p
  | .write => p.spoilWrite op.addr op.len

/-- The operations in progress on all channels. -/
def State.opsInProgress (s : State) : List PoolOp := allChannels.flatMap s.channel

/-- The pool after device reset from the RESET pin (R26, R22). -/
def State.poolAfterReset (s : State) : Pool := s.opsInProgress.foldl Pool.abandon s.pool

/-- DEVICE_RESET (R165): every record takes its value after device reset. The pool is kept at a reset from the pin; at
power-on it holds whatever the DRAM holds (R22, log 7, log 28). -/
def State.deviceReset (s : State) (cause : ResetCause) : State :=
  match cause with
  | .pin => { State.reset with pending := s.pending, pool := s.poolAfterReset, powerCycle := s.powerCycle }
  | .powerOn => { State.reset with pending := s.pending, powerCycle := s.powerCycle + 1 }

/-- DEVICE_RESET (R165). -/
def execDeviceReset (cause : ResetCause) (s : State) : Host.Outcome State Fault Refusal := .next (s.deviceReset cause)

/-- The straps are sampled at the release and the boot load begins (R166, R27). -/
def State.releaseReset (s : State) (psz : BitVec 3) (booten : Bool) : State :=
  { s with
    resetHeld := false
    poolCode := psz
    bootEnable := booten
    freeList := [{ base := 0, len := granulesOfCode psz }] }

/-- RESET_RELEASE (R166): a rising edge of RESET ends a device reset that is held. -/
def execResetRelease (psz : BitVec 3) (booten : Bool) (s : State) : Host.Outcome State Fault Refusal :=
  .next (if s.resetHeld then s.releaseReset psz booten else s)

/-! ### The boot image as read (R167, R173) -/

/-- A grant of the boot image, as its bytes spell it (section 11.3). -/
structure ImageGrant where
  node : Nat
  base : Nat
  rights : Nat
deriving DecidableEq, Repr

/-- A window of the boot image. -/
structure ImageWindow where
  base : Nat
  len : Nat
  grants : List ImageGrant
deriving DecidableEq, Repr

/-- The boot image. -/
structure BootImage where
  holdLimit : Nat
  revokeLimit : Nat
  copyPacing : Nat
  policy : Nat
  mask : Nat
  windows : List ImageWindow
deriving DecidableEq, Repr

/-- A boot status other than BAD_ENTRY. -/
def BootStatus.of (c : BootCode) : BootStatus := ⟨c, none⟩

/-- BAD_ENTRY with its entry. -/
def BootStatus.badEntry (e : BootEntry) : BootStatus := ⟨.badEntry, some e⟩

/-- The sum of bytes modulo 65536 (R173). -/
def checksum (bytes : List Byte) : Nat := (bytes.map BitVec.toNat).sum % 65536

/-- Reads the grants of a window: none when the EEPROM delivers too few bytes. -/
def readGrants : Nat → List Byte → Option (List ImageGrant × List Byte)
  | 0, bytes => some ([], bytes)
  | k + 1, n :: b0 :: b1 :: b2 :: b3 :: b4 :: r :: rest =>
    (readGrants k rest).map fun x => (⟨n.toNat, leValue [b0, b1, b2, b3, b4], r.toNat⟩ :: x.1, x.2)
  | _ + 1, _ => none

/-- Reads the windows from an index on (R167 points 1 and 4). -/
def readWindows : Nat → Nat → List Byte → Except BootStatus (List ImageWindow × List Byte)
  | 0, _, bytes => .ok ([], bytes)
  | k + 1, i, b0 :: b1 :: b2 :: b3 :: l0 :: l1 :: count :: rest =>
    if 4 < count.toNat then .error (.badEntry (.window (Fin.ofNat 8 i)))
    else match readGrants count.toNat rest with
      | none => .error (.of .noDevice)
      | some g => match readWindows k (i + 1) g.2 with
        | .error e => .error e
        | .ok x => .ok (⟨leValue [b0, b1, b2, b3], leValue [l0, l1], g.1⟩ :: x.1, x.2)
  | _ + 1, _, _ => .error (.of .noDevice)

/-- Reads the image after its version: settings, mask, windows and checksum (R167 points 1, 4 and 5). -/
def readBody (all : List Byte) : List Byte → Except BootStatus BootImage
  | h0 :: h1 :: r0 :: r1 :: p0 :: p1 :: policy :: mask :: count :: rest =>
    if 8 < count.toNat then .error (.badEntry .settings)
    else match readWindows count.toNat 0 rest with
      | .error e => .error e
      | .ok (windows, c0 :: c1 :: tail) =>
        if checksum (all.take (all.length - (tail.length + 2))) = leValue [c0, c1] then
          .ok ⟨leValue [h0, h1], leValue [r0, r1], leValue [p0, p1], policy.toNat, mask.toNat, windows⟩
        else .error (.of .badChecksum)
      | .ok (_, _) => .error (.of .noDevice)
  | _ => .error (.of .noDevice)

/-- The reading of the EEPROM, in the order of R167. -/
def readImage (eeprom : List Byte) : Except BootStatus BootImage :=
  match eeprom with
  | s0 :: s1 :: rest =>
    if s0 ≠ 0x5A ∨ s1 ≠ 0xA5 then .error (.of .badSignature)
    else match rest with
      | version :: body => if version ≠ 0x01 then .error (.of .badVersion) else readBody eeprom body
      | [] => .error (.of .noDevice)
  | _ => .error (.of .noDevice)

/-! ### Validation (R168) -/

/-- A node range that an earlier grant of the image takes (R168 order 7). -/
structure TakenRange where
  node : Nat
  base : Nat
  bytes : Nat
deriving DecidableEq, Repr

/-- Whether two extents share a granule (section 2.1). -/
def Extent.overlaps (e f : Extent) : Bool := e.base < f.base + f.len && f.base < e.base + e.len

/-- Orders 5 to 7 for one grant: `own` are the nodes of this window's earlier grants. -/
def grantValid (bytes : Nat) (own : List Nat) (earlier : List TakenRange) (g : ImageGrant) : Bool :=
  g.node < 4 && !own.contains g.node && (g.rights == 1 || g.rights == 2) &&
  g.base % granuleBytes == 0 && g.base < nodeSpace && g.base + bytes ≤ nodeSpace &&
  !earlier.any fun r => r.node == g.node && r.base < g.base + bytes && g.base < r.base + r.bytes

/-- The grants of a window in image order; the ranges taken after them, or none when one breaks a rule. -/
def grantsValid (bytes : Nat) : List Nat → List TakenRange → List ImageGrant → Option (List TakenRange)
  | _, earlier, [] => some earlier
  | own, earlier, g :: rest =>
    if grantValid bytes own earlier g then grantsValid bytes (g.node :: own) (⟨g.node, g.base, bytes⟩ :: earlier) rest
    else none

/-- The extent of an image window. -/
def ImageWindow.extent (w : ImageWindow) : Extent := ⟨w.base, w.len⟩

/-- Orders 2 to 4 for one window. -/
def windowValid (granules : Nat) (earlier : List Extent) (w : ImageWindow) : Bool :=
  1 ≤ w.len && w.len ≤ 4096 && w.base + w.len ≤ granules && !earlier.any fun e => e.overlaps w.extent

/-- The windows in image order, each with its grants; the first entry that breaks a rule (R168, log 18). -/
def badWindow (granules : Nat) : Nat → List Extent → List TakenRange → List ImageWindow → Option BootEntry
  | _, _, _, [] => none
  | i, extents, ranges, w :: rest =>
    if windowValid granules extents w then
      match grantsValid (w.len * granuleBytes) [] ranges w.grants with
      | some taken => badWindow granules (i + 1) (w.extent :: extents) taken rest
      | none => some (.window (Fin.ofNat 8 i))
    else some (.window (Fin.ofNat 8 i))

/-- Order 1: pacing, policy and mask (R168, R173). -/
def settingsValid (m : BootImage) : Bool := m.copyPacing ≤ 255 && m.policy ≤ 1 && m.mask < 16

/-- The first entry of an image that breaks a rule (R168). -/
def badEntry (granules : Nat) (m : BootImage) : Option BootEntry :=
  if settingsValid m then badWindow granules 0 [] [] m.windows else some .settings

/-- The outcome of the boot load: an image to install, or the code of the failure (R167, R168). -/
def bootLoad (enabled : Bool) (granules : Nat) (eeprom : List Byte) : Except BootStatus BootImage :=
  if enabled then
    match readImage eeprom with
    | .error e => .error e
    | .ok m => match badEntry granules m with
      | some e => .error (.badEntry e)
      | none => .ok m
  else .error (.of .notEnabled)

/-! ### Installation (R169) -/

/-- The image's settings; the enables stay (R169 step 1). -/
def Settings.ofImage (t : Settings) (m : BootImage) : Settings :=
  { t with
    holdLimit := BitVec.ofNat 16 m.holdLimit
    revokeLimit := BitVec.ofNat 16 m.revokeLimit
    copyPacing := BitVec.ofNat 8 m.copyPacing
    fenceOnRevokeTimeout := m.policy == 1 }

/-- The rights a validated rights byte gives (R173). -/
def imageRights (code : Nat) : Rights := if code = 2 then .readWrite else .read

/-- One grant of the image is made LISTED (R169 step 3, R37). -/
def State.installGrant (w : WindowId) (s : State) (g : ImageGrant) : State :=
  s.addGrant w (Fin.ofNat 4 g.node) g.base (imageRights g.rights)

/-- One window of the image with its grants (R169 steps 2 and 3). -/
def State.installWindow (s : State) (i : Nat) (x : ImageWindow) : State :=
  let w : WindowId := Fin.ofNat 64 i
  x.grants.foldl (State.installGrant w)
    (s.makeWindow w x.extent ((allocateExplicit x.extent s.freeList).getD s.freeList))

/-- The windows of the image from an index on, in image order. -/
def State.installWindows (s : State) : Nat → List ImageWindow → State
  | _, [] => s
  | i, x :: rest => (s.installWindow i x).installWindows (i + 1) rest

/-- A WAITING port is decided at the installation (R64). -/
def State.decidePort (s : State) (n : NodeId) : State :=
  if (s.port n).standing = .waiting then
    let closed := s.setPort n { s.port n with standing := .closed }
    if closed.link n = .fenced ∧ closed.inMask n then (closed.setLink n .admitted).send n .admitNotice else closed
  else s

/-- Every WAITING port is decided, BOOTING clears and the flag is raised (R169 steps 4 to 6). -/
def State.endBoot (s : State) (status : BootStatus) (mask : BitVec 4) (f : Flag) : State :=
  { (allNodes.foldl State.decidePort { s with maskInForce := mask }).raise f with
    booting := false
    bootStatus := status }

/-- The image's windows, grants and settings (R169 steps 1 to 3). -/
def State.installImage (s : State) (m : BootImage) : State :=
  ({ s with settings := s.settings.ofImage m }).installWindows 0 m.windows

/-- The flag an unsuccessful load raises: NOT_ENABLED raises BOOT_DONE, every other code BOOT_FAILED (R169). -/
def bootFlag (b : BootStatus) : Flag := if b.code = .notEnabled then .bootDone else .bootFailed

/-- The installation event (R169). -/
def State.install (s : State) (eeprom : List Byte) : State :=
  match bootLoad s.bootEnable s.granules eeprom with
  | .ok m => (s.installImage m).endBoot (.of .loaded) (BitVec.ofNat 4 m.mask) .bootDone
  | .error b => s.endBoot b 0 (bootFlag b)

/-- BOOT_INSTALL (R169): taken once after each release of device reset. -/
def execBootInstall (eeprom : List Byte) (s : State) : Host.Outcome State Fault Refusal :=
  event (fun s => if s.booting then s.install eeprom else s) s

end Sys2Proof.Machine
end

