-- ==== Sys2Proof/Machine/Flags.lean ====
section
/-! DEFINITION. What the port shows: BUSY, ATTN, MINT, the attention summary and the sixteen slots (R150, R153, R157).
None of it is stored (log 21). -/

namespace Sys2Proof.Machine

/-- The classes of attention sources (section 9.4). -/
inductive SourceClass where
  | device | node | job | window
deriving DecidableEq, Repr

/-- The class of a source number (section 9.4). -/
def sourceClass (i : Nat) : SourceClass :=
  if i = 0 then .device else if i ≤ 4 then .node else if i ≤ 8 then .job else .window

/-- The reasons a class has, as bits of a reason set (section 9.4, 11.1.1). -/
def SourceClass.mask : SourceClass → BitVec 6
  | .device => 0b000011
  | .node => 0b111111
  | .job => 0b000011
  | .window => 0b001111

/-- The enable of a class (R160). -/
def Settings.enable (t : Settings) : SourceClass → Bool
  | .device => t.deviceEnable
  | .node => t.nodeEnable
  | .job => t.jobEnable
  | .window => t.windowEnable

/-- The sources with any flag pending, in order of source number (R158). -/
def State.pendingSources (s : State) : List (Fin 73) := (List.finRange 73).filter fun i => s.reasons i != 0

/-- Whether a class has any reason pending on any of its sources (R157). -/
def State.classPending (s : State) (c : SourceClass) : Bool := s.pendingSources.any fun i => sourceClass i.val == c

/-- BUSY is set exactly when BOOTING is set or a taken command has not reached its completion event (R153). -/
def State.busy (s : State) : Bool := s.booting || s.taken.isSome

/-- ATTN is set while any reason is pending whose class enable is on (R157). -/
def State.attn (s : State) : Bool := s.pendingSources.any fun i => s.settings.enable (sourceClass i.val)

/-- MINT is asserted exactly when an enabled attention flag is pending, or CMD_DONE is set with its enable on (R157). -/
def State.mint (s : State) : Bool := s.attn || (s.cmdDone && s.settings.commandEnable)

/-- A flag as a bit of a slot. -/
def flagBit (b : Bool) (weight : Nat) : Nat := if b then weight else 0

/-- The STATUS slot (section 11.1). -/
def State.status (s : State) : Word :=
  slotOf (flagBit s.busy 1 + flagBit s.err 2 + flagBit s.attn 4 + flagBit s.overrun 8 + flagBit s.booting 16 +
    flagBit s.cmdDone 32)

/-- The attention summary slot: whatever the enables hold (R157). -/
def State.summary (s : State) : Word :=
  slotOf (flagBit (s.classPending .device) 1 + flagBit (s.classPending .node) 2 + flagBit (s.classPending .job) 4 +
    flagBit (s.classPending .window) 8)

/-- What a read of a slot returns; it has no effect on any record (R150). -/
def State.readSlot (s : State) (i : Fin 16) : Word :=
  match i.val with
  | 0 => s.status
  | 1 => slotOf s.errorCode.code
  | 2 => s.commandSlot
  | 3 => Table.get s.params 0
  | 4 => Table.get s.params 1
  | 5 => Table.get s.params 2
  | 6 => Table.get s.params 3
  | 7 => Table.get s.params 4
  | 8 => Table.get s.params 5
  | 9 => Table.get s.params 6
  | 10 => Table.get s.params 7
  | 11 => s.summary
  | 12 => 0x00004744#32
  | 13 => 0x00000001#32
  | _ => 0

end Sys2Proof.Machine
end

