-- ==== Sys2Proof/Machine/Port.lean ====
section
/-! DEFINITION. Chapter 9: slot writes, the taking of a command, CONTROL, soft reset, and the completions of the port's
own commands. -/

namespace Sys2Proof.Machine

/-! ### Slot writes -/

/-- A write to COMMAND (R151, R153): taken when BUSY and BOOTING are clear, else ignored with OVERRUN. -/
def State.writeCommand (s : State) (code : Word) : State :=
  if s.busy then { s with overrun := true }
  else { s with commandSlot := code, taken := some ⟨code, s.params⟩, err := false, cmdDone := false }

/-- A write to a PARAM slot (R153). -/
def State.writeParam (s : State) (i : Fin 8) (value : Word) : State :=
  if s.busy then { s with overrun := true } else { s with params := Table.put s.params i value }

/-- The settings with the five enables on (R164 step 5). -/
def Settings.enablesOn (t : Settings) : Settings :=
  { t with deviceEnable := true, nodeEnable := true, jobEnable := true, windowEnable := true, commandEnable := true }

/-- A command in progress is abandoned (R164 step 1). -/
def State.abandonCommand (s : State) : State :=
  match s.taken with
  | none => s
  | some t => { s with taken := none, errorCode := .done, err := false, params := t.params }

/-- Soft reset (R164). -/
def State.softReset (s : State) : State :=
  { s.abandonCommand with
    overrun := false
    cmdDone := false
    attention := Table.fill 73 0
    settings := s.settings.enablesOn }

/-- A write to CONTROL, by the actions its value names (R154, R171); it is taken whatever BUSY and BOOTING hold. -/
def State.writeControl (s : State) (value : Word) : State :=
  if value.getLsbD 7 then s.softReset
  else
    { s with
      overrun := s.overrun && !value.getLsbD 0
      cmdDone := s.cmdDone && !value.getLsbD 1 }

/-- A write to a slot by its number (section 9.1): slots 1 and 11 to 15 ignore it and set no flag (R150). -/
def State.writeSlot (s : State) (i : Fin 16) (value : Word) : State :=
  match i.val with
  | 0 => s.writeControl value
  | 2 => s.writeCommand value
  | 3 => s.writeParam 0 value
  | 4 => s.writeParam 1 value
  | 5 => s.writeParam 2 value
  | 6 => s.writeParam 3 value
  | 7 => s.writeParam 4 value
  | 8 => s.writeParam 5 value
  | 9 => s.writeParam 6 value
  | 10 => s.writeParam 7 value
  | _ => s

/-- PARAM_WRITE (R153). -/
def execParamWrite (i : Fin 16) (value : Word) (s : State) : Host.Outcome State Fault Refusal :=
  event (fun s => s.writeSlot i value) s

/-- CLEAR_OVERRUN (R154): the CONTROL write that names it. -/
def execClearOverrun (value : Word) (s : State) : Host.Outcome State Fault Refusal :=
  event (fun s => s.writeControl value) s

/-- CLEAR_CMD_DONE (R154): the CONTROL write that names it. -/
def execClearCmdDone (value : Word) (s : State) : Host.Outcome State Fault Refusal :=
  event (fun s => s.writeControl value) s

/-- SOFT_RESET (R164): the CONTROL write that names it. -/
def execSoftReset (value : Word) (s : State) : Host.Outcome State Fault Refusal :=
  event (fun s => s.writeControl value) s

/-! ### The taking of each command (R151): a write of its code to COMMAND -/

/-- NOP is taken (R155). -/
def execNop (s : State) : Host.Outcome State Fault Refusal := event (fun s => s.writeCommand Cmd.nop.code) s

/-- IDENTIFY is taken (R163). -/
def execIdentify (s : State) : Host.Outcome State Fault Refusal := event (fun s => s.writeCommand Cmd.identify.code) s

/-- SET TIMERS is taken (R161). -/
def execSetTimers (s : State) : Host.Outcome State Fault Refusal := event (fun s => s.writeCommand Cmd.setTimers.code) s

/-- SET POLICY is taken (R162). -/
def execSetPolicy (s : State) : Host.Outcome State Fault Refusal := event (fun s => s.writeCommand Cmd.setPolicy.code) s

/-- GET ATTENTION is taken (R158). -/
def execGetAttention (s : State) : Host.Outcome State Fault Refusal :=
  event (fun s => s.writeCommand Cmd.getAttention.code) s

/-- ACK ATTENTION is taken (R159). -/
def execAckAttention (s : State) : Host.Outcome State Fault Refusal :=
  event (fun s => s.writeCommand Cmd.ackAttention.code) s

/-- CREATE WINDOW is taken (R16). -/
def execCreateWindow (s : State) : Host.Outcome State Fault Refusal :=
  event (fun s => s.writeCommand Cmd.createWindow.code) s

/-- QUERY WINDOW is taken (R19). -/
def execQueryWindow (s : State) : Host.Outcome State Fault Refusal :=
  event (fun s => s.writeCommand Cmd.queryWindow.code) s

/-- QUERY FREE is taken (R33). -/
def execQueryFree (s : State) : Host.Outcome State Fault Refusal := event (fun s => s.writeCommand Cmd.queryFree.code) s

/-- GRANT is taken (R45). -/
def execGrant (s : State) : Host.Outcome State Fault Refusal := event (fun s => s.writeCommand Cmd.grant.code) s

/-- SET RIGHTS is taken (R48). -/
def execSetRights (s : State) : Host.Outcome State Fault Refusal := event (fun s => s.writeCommand Cmd.setRights.code) s

/-- QUERY GRANT is taken (R50). -/
def execQueryGrant (s : State) : Host.Outcome State Fault Refusal :=
  event (fun s => s.writeCommand Cmd.queryGrant.code) s

/-- LOOKUP is taken (R51). -/
def execLookup (s : State) : Host.Outcome State Fault Refusal := event (fun s => s.writeCommand Cmd.lookup.code) s

/-- ADMIT NODE is taken (R67). -/
def execAdmitNode (s : State) : Host.Outcome State Fault Refusal := event (fun s => s.writeCommand Cmd.admitNode.code) s

/-- FENCE NODE is taken (R68). -/
def execFenceNode (s : State) : Host.Outcome State Fault Refusal := event (fun s => s.writeCommand Cmd.fenceNode.code) s

/-- READ FAULT CAPTURE is taken (R94). -/
def execReadFaultCapture (s : State) : Host.Outcome State Fault Refusal :=
  event (fun s => s.writeCommand Cmd.readFaultCapture.code) s

/-- RELEASE FAULT CAPTURE is taken (R95). -/
def execReleaseFaultCapture (s : State) : Host.Outcome State Fault Refusal :=
  event (fun s => s.writeCommand Cmd.releaseFaultCapture.code) s

/-- SUSPEND is taken (R108). -/
def execSuspend (s : State) : Host.Outcome State Fault Refusal := event (fun s => s.writeCommand Cmd.suspend.code) s

/-- RESUME is taken (R110). -/
def execResume (s : State) : Host.Outcome State Fault Refusal := event (fun s => s.writeCommand Cmd.resume.code) s

/-- REVOKE is taken (R113). -/
def execRevoke (s : State) : Host.Outcome State Fault Refusal := event (fun s => s.writeCommand Cmd.revoke.code) s

/-- RETIRE is taken (R124). -/
def execRetire (s : State) : Host.Outcome State Fault Refusal := event (fun s => s.writeCommand Cmd.retire.code) s

/-- MIGRATE is taken (R147). -/
def execMigrate (s : State) : Host.Outcome State Fault Refusal := event (fun s => s.writeCommand Cmd.migrate.code) s

/-- ABORT JOB is taken (R143). -/
def execAbortJob (s : State) : Host.Outcome State Fault Refusal := event (fun s => s.writeCommand Cmd.abortJob.code) s

/-- QUERY JOB is taken (R148). -/
def execQueryJob (s : State) : Host.Outcome State Fault Refusal := event (fun s => s.writeCommand Cmd.queryJob.code) s

/-- A code that names no command is taken too (R151, R171). -/
def execBadCommand (code : Word) (s : State) : Host.Outcome State Fault Refusal :=
  event (fun s => s.writeCommand code) s

/-! ### Completions of the port's own commands -/

/-- The completion of NOP (R155). -/
def completeNop (_p : Vector Word 8) (s : State) : Completion := carriedOut s []

/-- The completion of IDENTIFY (R163, section 11.1.2); the boot-enable strap is coded 1 for high (the model's choice,
log 31). -/
def completeIdentify (_p : Vector Word 8) (s : State) : Completion :=
  carriedOut s
    [0x00004744#32, 0x00000001#32, slotOf s.granules, flagSlot s.bootEnable, s.bootStatus.word, packBytes 4 64 4 32]

/-- The completion of SET TIMERS (R161). -/
def completeSetTimers (p : Vector Word 8) (s : State) : Completion :=
  if 65535 < param p 0 ∨ 65535 < param p 1 ∨ 255 < param p 2 then refuse s .badParam []
  else
    carriedOut
      { s with
        settings :=
          { s.settings with
            holdLimit := BitVec.ofNat 16 (param p 0)
            revokeLimit := BitVec.ofNat 16 (param p 1)
            copyPacing := BitVec.ofNat 8 (param p 2) } }
      [slotOf s.settings.holdLimit.toNat, slotOf s.settings.revokeLimit.toNat, slotOf s.settings.copyPacing.toNat]

/-- A setting's flag parameter is set or on. -/
def flagParam (p : Vector Word 8) (i : Fin 8) : Bool := param p i == 1

/-- The completion of SET POLICY (R162). -/
def completeSetPolicy (p : Vector Word 8) (s : State) : Completion :=
  if 1 < param p 0 ∨ 1 < param p 1 ∨ 1 < param p 2 ∨ 1 < param p 3 ∨ 1 < param p 4 ∨ 1 < param p 5 then
    refuse s .badParam []
  else
    carriedOut
      { s with
        settings :=
          { s.settings with
            fenceOnRevokeTimeout := flagParam p 0
            deviceEnable := flagParam p 1
            nodeEnable := flagParam p 2
            jobEnable := flagParam p 3
            windowEnable := flagParam p 4
            commandEnable := flagParam p 5 } }
      [flagSlot s.settings.fenceOnRevokeTimeout, flagSlot s.settings.deviceEnable, flagSlot s.settings.nodeEnable,
        flagSlot s.settings.jobEnable, flagSlot s.settings.windowEnable, flagSlot s.settings.commandEnable]

/-- What GET ATTENTION reports beside a source, by its class: boot status, slot state or generation (R158). -/
def State.sourceDetail (s : State) (i : Fin 73) : Word :=
  match sourceClass i.val with
  | .device => s.bootStatus.word
  | .node => 0
  | .job => slotOf (s.slot (Fin.ofNat 4 (i.val - 5))).code
  | .window => slotOf (s.window (Fin.ofNat 64 (i.val - 9))).generation.toNat

/-- The completion of GET ATTENTION (R158); the slots of an absent source are those of log 17. -/
def completeGetAttention (_p : Vector Word 8) (s : State) : Completion :=
  match s.pendingSources with
  | [] => carriedOut s [absentSlot, 0, 0, 0]
  | i :: rest =>
    carriedOut s [slotOf i.val, slotOf (s.reasons i).toNat, s.sourceDetail i, slotOf (rest.length + 1)]

/-- A FINISHED slot is released by an acknowledgement of DONE or ABORTED (R146). -/
def State.releaseSlot (s : State) (j : SlotId) : State :=
  match s.slot j with
  | .finished _ _ => s.setSlot j .idle
  | .idle => s
  | .copying _ _ => s
  | .aborting _ _ => s
  | .drainingOld _ => s

/-- The reasons named are cleared on a source; a job slot source may release its slot (R159, R146). -/
def State.ackSource (s : State) (i : Fin 73) (named : BitVec 6) : State :=
  let cleared := s.setReasons i (s.reasons i &&& ~~~named)
  if sourceClass i.val = .job ∧ named ≠ 0 then cleared.releaseSlot (Fin.ofNat 4 (i.val - 5)) else cleared

/-- The completion of ACK ATTENTION (R159). -/
def completeAckAttention (p : Vector Word 8) (s : State) : Completion :=
  if h : param p 0 < 73 then
    let i : Fin 73 := ⟨param p 0, h⟩
    let named := BitVec.ofNat 6 (param p 1)
    if 64 ≤ param p 1 ∨ named &&& ~~~(sourceClass (param p 0)).mask ≠ 0 then refuse s .badParam []
    else
      carriedOut (s.ackSource i named)
        [slotOf (s.reasons i).toNat, slotOf (s.reasons i &&& ~~~named).toNat]
  else refuse s .badParam []

end Sys2Proof.Machine
end

