-- ==== Sys2Proof/Machine/Commands.lean ====
section
/-! DEFINITION. The completion event of a taken command (R152). -/

namespace Sys2Proof.Machine

/-- The checks and effects of a command at its completion event, by its owner (section 9.3). -/
def complete (c : Cmd) (p : Vector Word 8) (s : State) : Completion :=
  match c with
  | .nop => completeNop p s
  | .identify => completeIdentify p s
  | .setTimers => completeSetTimers p s
  | .setPolicy => completeSetPolicy p s
  | .getAttention => completeGetAttention p s
  | .ackAttention => completeAckAttention p s
  | .createWindow => completeCreateWindow p s
  | .queryWindow => completeQueryWindow p s
  | .queryFree => completeQueryFree p s
  | .grant => completeGrant p s
  | .setRights => completeSetRights p s
  | .queryGrant => completeQueryGrant p s
  | .lookup => completeLookup p s
  | .admitNode => completeAdmitNode p s
  | .fenceNode => completeFenceNode p s
  | .readFaultCapture => completeReadFaultCapture p s
  | .releaseFaultCapture => completeReleaseFaultCapture p s
  | .suspend => completeSuspend p s
  | .resume => completeResume p s
  | .revoke => completeRevoke p s
  | .retire => completeRetire p s
  | .migrate => completeMigrate p s
  | .abortJob => completeAbortJob p s
  | .queryJob => completeQueryJob p s

/-- What a taken command does at its completion event: an unknown code completes BAD_COMMAND at the port (R151). -/
def runTaken (t : Taken) (s : State) : Completion :=
  match Cmd.ofCode t.code with
  | some c => complete c t.params s
  | none => refuse s .badCommand []

/-- The slots at a completion event (R152): results, result code, ERR, CMD_DONE, and BUSY clears. -/
def Completion.close (r : Completion) : State :=
  { r.state with
    params := resultSlots r.results
    errorCode := r.code
    err := r.code != .done
    cmdDone := true
    taken := none }

/-- COMMAND_COMPLETION (R152): with no command in progress there is none to complete. -/
def execCommandCompletion (s : State) : Host.Outcome State Fault Refusal :=
  event (fun s => match s.taken with
    | none => s
    | some t => (runTaken t s).close) s

end Sys2Proof.Machine
end

