-- ==== Sys2Proof/Machine/Dispatch.lean ====
section
/-! DEFINITION. The meaning of each command and event: one arm per constructor of Instr. -/

namespace Sys2Proof.Machine

def exec (i : Instr) (s : State) : Host.Outcome State Fault Refusal :=
  match i with
  | .nop => Sys2Proof.Machine.execNop s
  | .identify => Sys2Proof.Machine.execIdentify s
  | .setTimers => Sys2Proof.Machine.execSetTimers s
  | .setPolicy => Sys2Proof.Machine.execSetPolicy s
  | .getAttention => Sys2Proof.Machine.execGetAttention s
  | .ackAttention => Sys2Proof.Machine.execAckAttention s
  | .createWindow => Sys2Proof.Machine.execCreateWindow s
  | .queryWindow => Sys2Proof.Machine.execQueryWindow s
  | .queryFree => Sys2Proof.Machine.execQueryFree s
  | .grant => Sys2Proof.Machine.execGrant s
  | .setRights => Sys2Proof.Machine.execSetRights s
  | .queryGrant => Sys2Proof.Machine.execQueryGrant s
  | .lookup => Sys2Proof.Machine.execLookup s
  | .admitNode => Sys2Proof.Machine.execAdmitNode s
  | .fenceNode => Sys2Proof.Machine.execFenceNode s
  | .readFaultCapture => Sys2Proof.Machine.execReadFaultCapture s
  | .releaseFaultCapture => Sys2Proof.Machine.execReleaseFaultCapture s
  | .suspend => Sys2Proof.Machine.execSuspend s
  | .resume => Sys2Proof.Machine.execResume s
  | .revoke => Sys2Proof.Machine.execRevoke s
  | .retire => Sys2Proof.Machine.execRetire s
  | .migrate => Sys2Proof.Machine.execMigrate s
  | .abortJob => Sys2Proof.Machine.execAbortJob s
  | .queryJob => Sys2Proof.Machine.execQueryJob s
  | .badCommand code => Sys2Proof.Machine.execBadCommand code s
  | .paramWrite slot value => Sys2Proof.Machine.execParamWrite slot value s
  | .clearOverrun value => Sys2Proof.Machine.execClearOverrun value s
  | .clearCmdDone value => Sys2Proof.Machine.execClearCmdDone value s
  | .softReset value => Sys2Proof.Machine.execSoftReset value s
  | .deviceReset cause => Sys2Proof.Machine.execDeviceReset cause s
  | .resetRelease psz booten => Sys2Proof.Machine.execResetRelease psz booten s
  | .bootInstall eeprom => Sys2Proof.Machine.execBootInstall eeprom s
  | .linkUp node => Sys2Proof.Machine.execLinkUp node s
  | .linkDown node => Sys2Proof.Machine.execLinkDown node s
  | .hello node identity => Sys2Proof.Machine.execHello node identity s
  | .read node tag addr len => Sys2Proof.Machine.execRead node tag addr len s
  | .write node tag addr len data => Sys2Proof.Machine.execWrite node tag addr len data s
  | .revokeAck node number => Sys2Proof.Machine.execRevokeAck node number s
  | .malformedMessage node bytes => Sys2Proof.Machine.execMalformedMessage node bytes s
  | .handToLinkLayer node => Sys2Proof.Machine.execHandToLinkLayer node s
  | .transactionOperationEnd channel dramFault => Sys2Proof.Machine.execTransactionOperationEnd channel dramFault s
  | .holdExpiry node => Sys2Proof.Machine.execHoldExpiry node s
  | .revokeDeadline window node => Sys2Proof.Machine.execRevokeDeadline window node s
  | .copyReadEnd dramFault => Sys2Proof.Machine.execCopyReadEnd dramFault s
  | .copyWriteEnd dramFault => Sys2Proof.Machine.execCopyWriteEnd dramFault s
  | .pacingEnd => Sys2Proof.Machine.execPacingEnd s
  | .commandCompletion => Sys2Proof.Machine.execCommandCompletion s

end Sys2Proof.Machine
end

