-- ==== Sys2Proof/Safety.lean ====
section
/-! DEFINITION. The terms claims use: when an event is taken, what a completion writes, who owns each granule, and the
invariants of the records. -/

namespace Sys2Proof.Machine

/-! ### Events and completions -/

/-- The command at its completion event, with its latched parameters (R151, R152). -/
abbrev State.completing (s : State) (c : Cmd) (p : Vector Word 8) : Prop :=
  s.resetHeld = false ∧ s.taken = some ⟨c.code, p⟩

/-- The slots a completion event writes (R152): results from PARAM0 on, the result code, ERR, CMD_DONE; BUSY clears. -/
def State.completed (s : State) (code : ResultCode) (results : List Word) : State :=
  { s with
    params := resultSlots results
    errorCode := code
    err := code != .done
    cmdDone := true
    taken := none }

/-- The port takes a write to COMMAND or to a PARAM slot (R151, R153). -/
abbrev State.portFree (s : State) : Prop := s.resetHeld = false ∧ s.booting = false ∧ s.taken = none

/-- The code that a command row writes to COMMAND (11, section 11.1). -/
def commandRow : Instr → Option Word
  | .nop => some 0x00#32
  | .identify => some 0x01#32
  | .setTimers => some 0x02#32
  | .setPolicy => some 0x03#32
  | .getAttention => some 0x04#32
  | .ackAttention => some 0x05#32
  | .createWindow => some 0x10#32
  | .queryWindow => some 0x11#32
  | .queryFree => some 0x12#32
  | .grant => some 0x20#32
  | .setRights => some 0x21#32
  | .queryGrant => some 0x22#32
  | .lookup => some 0x23#32
  | .admitNode => some 0x30#32
  | .fenceNode => some 0x31#32
  | .readFaultCapture => some 0x38#32
  | .releaseFaultCapture => some 0x39#32
  | .suspend => some 0x40#32
  | .resume => some 0x41#32
  | .revoke => some 0x50#32
  | .retire => some 0x51#32
  | .migrate => some 0x60#32
  | .abortJob => some 0x61#32
  | .queryJob => some 0x62#32
  | .badCommand code => some code
  | _ => none

/-- The nine window commands with the codes of the window states that take them, by the table of R7 (ACTIVE 1,
SUSPENDED 2, MIGRATING 3, RETIRING 4). -/
def windowCommands : List (Cmd × List Nat) :=
  [(.queryWindow, [1, 2, 3, 4]), (.queryGrant, [1, 2, 3, 4]), (.grant, [1, 2, 3]), (.setRights, [1, 2, 3]),
   (.revoke, [1, 2, 3]), (.suspend, [1]), (.resume, [2]), (.retire, [1, 2]), (.migrate, [1])]

/-- A window command names a window in use by its current generation (R5, R6). -/
abbrev State.names (s : State) (p : Vector Word 8) (w : WindowId) (v : Live) : Prop :=
  param p 0 = w.val ∧ (s.window w).life = some v ∧ param p 1 = (s.window w).generation.toNat

/-- A window in use takes new contents; its generation stays (R3). -/
def State.withLife (s : State) (w : WindowId) (v : Live) : State :=
  { s with windows := Table.put s.windows w { generation := (s.window w).generation, life := some v } }

/-- A grant as GRANT makes it (R46). -/
def GrantRecord.fresh (n : NodeId) (base : Nat) (r : Rights) : GrantRecord :=
  { node := n, base := base, rights := r, state := .listed, executing := 0, held := 0 }

/-- A node's port takes new contents. -/
def State.withPort (s : State) (n : NodeId) (p : Port) : State := { s with ports := Table.put s.ports n p }

/-! ### Requests and answers -/

/-- The arrival of a request of either kind. -/
def arrival (k : Kind) (n : NodeId) (t : Tag) (addr : BitVec 40) (len : BitVec 16) (data : List Byte) : Instr :=
  match k with
  | .read => .read n t addr len
  | .write => .write n t addr len data

/-- The data a request carries: a WRITE as many bytes as its length states, a READ none (R172). -/
abbrev carries (k : Kind) (len : BitVec 16) (data : List Byte) : Prop :=
  match k with
  | .read => data = []
  | .write => data.length = len.toNat

/-- A message placed at the tail of a node's outbound queue (R58). -/
def State.answered (s : State) (n : NodeId) (m : Message) : State :=
  { s with ports := Table.put s.ports n { s.port n with outbound := (s.port n).outbound ++ [m] } }

/-- A reason flag made pending on a source (R156). -/
def State.flagged (s : State) (i : Fin 73) (bit : BitVec 6) : State :=
  { s with attention := Table.put s.attention i (s.reasons i ||| bit) }

/-- A captured fault fills a clear fault capture record and raises FAULT_CAPTURED; a frozen one stays (R93). -/
def State.captureTaken (s : State) (n : NodeId) (c : Capture) : State :=
  match s.capture n with
  | some _ => s
  | none => { s with captures := Table.put s.captures n (some c) }.flagged (nodeSource n) 0b100000

/-- The reason a replay pass faults a request with, if it does (R99 steps 1 to 3): the lookup and the rights in force,
and the state of the window found. -/
def State.replayFault (s : State) (n : NodeId) (x : TagEntry) : Option FaultReason :=
  match s.entryAt n x.addr with
  | none => some .noWindow
  | some m =>
    if x.kind = .write ∧ m.grant.rights = .read then some .rights
    else if m.live.state = .retiring then some .windowRetired
    else none

/-- The completions a replay pass owes the entries of a node's queue that it faults, in queue order (R99, R91). -/
def State.replayAnswers (s : State) (n : NodeId) : List Message :=
  (s.hold n).filterMap fun e =>
    match s.tag n e.tag with
    | none => none
    | some x => (s.replayFault n x).map fun r => .completion e.tag (.fault r)

/-- The operation at the head of a channel is the one that the transaction `x` issued for `role` (R24, R86). -/
def State.opOf (s : State) (c : ChannelId) (op : PoolOp) (rest : List PoolOp) (x : Transaction) (role : Role) : Prop :=
  s.resetHeld = false ∧ s.channel c = op :: rest ∧ op.issuer = .transaction x.id role ∧ x ∈ s.transactions

/-- `a` is the state in which the outcome of an operation has been noted: the record named `id` has become `u`, and a
mirror write that failed has been told to the job that owns the window (R86, R140, log 11). -/
def State.noted (s : State) (id : Nat) (u : Transaction) (role : Role) (r : OpEnd) (a : State) : Prop :=
  ∃ b : State, b = { r.state with transactions := s.transactions.map fun y => if y.id = id then u else y } ∧
    (r.failed = true ∧ u.mirrored = true ∧ role = .target → a = b.mirrorFailed u.window) ∧
    (¬(r.failed = true ∧ u.mirrored = true ∧ role = .target) → a = b)

/-! ### The boot image in bytes (section 11.3) -/

/-- The bytes of a grant. -/
def ImageGrant.encode (g : ImageGrant) : List Byte :=
  BitVec.ofNat 8 g.node :: (leBytes 5 g.base ++ [BitVec.ofNat 8 g.rights])

/-- The bytes of a window with its grants. -/
def ImageWindow.encode (w : ImageWindow) : List Byte :=
  leBytes 4 w.base ++ leBytes 2 w.len ++ [BitVec.ofNat 8 w.grants.length] ++ w.grants.flatMap ImageGrant.encode

/-- The bytes up to the window count. -/
def BootImage.header (m : BootImage) (count : Byte) : List Byte :=
  [0x5A, 0xA5, 0x01] ++ leBytes 2 m.holdLimit ++ leBytes 2 m.revokeLimit ++ leBytes 2 m.copyPacing ++
    [BitVec.ofNat 8 m.policy, BitVec.ofNat 8 m.mask, count]

/-- The bytes before the checksum. -/
def BootImage.body (m : BootImage) : List Byte :=
  m.header (BitVec.ofNat 8 m.windows.length) ++ m.windows.flatMap ImageWindow.encode

/-- The image with its checksum, low byte first (R173). -/
def BootImage.encode (m : BootImage) : List Byte := m.body ++ leBytes 2 (checksum m.body)

/-- Every value fits the field that carries it, and the counts are those the layout admits (R167, section 11.3). -/
def BootImage.fits (m : BootImage) : Prop :=
  m.holdLimit < 65536 ∧ m.revokeLimit < 65536 ∧ m.copyPacing < 65536 ∧ m.policy < 256 ∧ m.mask < 256 ∧
    m.windows.length ≤ 8 ∧
    ∀ w ∈ m.windows, w.base < 4294967296 ∧ w.len < 65536 ∧ w.grants.length ≤ 4 ∧
      ∀ g ∈ w.grants, g.node < 256 ∧ g.base < nodeSpace ∧ g.rights < 256

/-- Two ranges share no number. -/
abbrev apart (base len base' len' : Nat) : Prop := base + len ≤ base' ∨ base' + len' ≤ base

/-- An image window keeps orders 2 to 7 of R168 behind the windows that stand before it. -/
def ImageWindow.passes (granules : Nat) (before : List ImageWindow) (w : ImageWindow) : Prop :=
  (1 ≤ w.len ∧ w.len ≤ 4096) ∧ w.base + w.len ≤ granules ∧ (∀ x ∈ before, apart x.base x.len w.base w.len) ∧
    (∀ g ∈ w.grants, g.node ≤ 3 ∧ (g.rights = 1 ∨ g.rights = 2)) ∧ w.grants.Pairwise (fun g h => g.node ≠ h.node) ∧
    (∀ g ∈ w.grants, g.base % granuleBytes = 0 ∧ g.base + w.len * granuleBytes ≤ nodeSpace) ∧
    ∀ g ∈ w.grants, ∀ x ∈ before, ∀ h ∈ x.grants, h.node = g.node →
      apart h.base (x.len * granuleBytes) g.base (w.len * granuleBytes)

/-! ### The owners of pool granules (R28) -/

/-- The home extents of all windows in use. -/
def State.homes (s : State) : List Extent :=
  allWindows.filterMap fun w => (s.window w).life.map fun v => v.home

/-- The spare extents of all busy job slots (R131). -/
def State.spares (s : State) : List Extent := allSlots.filterMap fun j => (s.slot j).spare

/-- Every extent of the part: free, home or spare. -/
def State.extents (s : State) : List Extent := s.freeList ++ s.homes ++ s.spares

/-- Every granule of the pool lies in exactly one extent, and no extent reaches outside the pool (R28). -/
def State.partitioned (s : State) : Prop :=
  ∀ g, (s.extents.filter fun e => e.covers g).length = if g < s.granules then 1 else 0

/-- The Free Extent List is ordered and merged, and every entry holds a granule (R27). -/
def FreeListOrdered (l : List Extent) : Prop :=
  l.Pairwise (fun e f => e.base + e.len < f.base) ∧ ∀ e ∈ l, 1 ≤ e.len

/-- A busy slot's window is MIGRATING under it with its home on one of the job's two extents (R131). -/
def State.ownedHome (s : State) (j : SlotId) (job : Job) (home : Extent) : Prop :=
  job.target.len = job.source.len ∧
    ∃ v, (s.window job.window).life = some v ∧ v.state = .migrating j ∧ v.home = home

/-- Every busy slot names a window that is MIGRATING under it, with the home its state gives (R131). -/
def State.slotsOwn (s : State) : Prop :=
  ∀ j, match s.slot j with
    | .idle => True
    | .finished _ _ => True
    | .copying job _ => s.ownedHome j job job.source
    | .aborting job _ => s.ownedHome j job job.source
    | .drainingOld job => s.ownedHome j job job.target

/-- Every MIGRATING window is named by the busy slot it names (R131, R15). -/
def State.migratingOwned (s : State) : Prop :=
  ∀ w v j, (s.window w).life = some v → v.state = .migrating j →
    ∃ job, (s.slot j).job = some job ∧ job.window = w ∧ (s.slot j).spare.isSome

/-- Every window in use has a length (R1). -/
def State.homesHold (s : State) : Prop := ∀ w v, (s.window w).life = some v → 1 ≤ v.home.len

/-- Before the installation the part holds no window, no job and no command (R2, R130, R170). -/
def State.bootClean (s : State) : Prop :=
  (s.resetHeld = true → s.booting = true) ∧
  (s.booting = true → s.taken = none ∧ (∀ w, (s.window w).life = none) ∧ ∀ j, s.slot j = .idle)

/-- The law of R28 with what carries it from step to step. -/
structure State.Owned (s : State) : Prop where
  partition : s.partitioned
  ordered : FreeListOrdered s.freeList
  slots : s.slotsOwn
  migrating : s.migratingOwned
  homes : s.homesHold
  boot : s.bootClean

/-! ### Invariants of single records -/

/-- Every hold queue has at most eight entries, and a node that is not ADMITTED holds none (R96, R105). -/
def State.HoldsBounded (s : State) : Prop :=
  ∀ n, (s.hold n).length ≤ 8 ∧ (s.link n ≠ .admitted → s.hold n = [])

/-- No two REVOKING grants of one node hold the same notice number (R72, R112). -/
def State.NoticesDistinct (s : State) : Prop :=
  ∀ n w x number, s.noticeOf n w = some number → s.noticeOf n x = some number → w = x

/-- Hold queues, tag tables and transaction records name each other (R74, R76, R96). -/
structure State.TagsAgree (s : State) : Prop where
  heldOnce : ∀ n, ((s.hold n).map fun e => e.tag).Nodup
  heldTag : ∀ n, ∀ e ∈ s.hold n, ∃ x, s.tag n e.tag = some x ∧ x.phase = .held
  tagHeld : ∀ n t x, s.tag n t = some x → x.phase = .held → ∃ e ∈ s.hold n, e.tag = t
  idsOnce : (s.transactions.map fun x => x.id).Nodup
  idsPast : ∀ x ∈ s.transactions, x.id < s.nextTransaction
  recordTag : ∀ x ∈ s.transactions, ∀ t, x.tag = some t →
    ∃ y, s.tag x.node t = some y ∧ y.phase = .executing x.id
  tagRecord : ∀ n t y id, s.tag n t = some y → y.phase = .executing id →
    ∃ x ∈ s.transactions, x.id = id ∧ x.node = n ∧ x.tag = some t

/-- A map entry's range ends before the next one's begins (R39). -/
def MapEntry.before (x y : MapEntry) : Prop := x.grant.base + x.live.bytes ≤ y.grant.base

/-- A map entry's range lies below 2^40 on granule boundaries (R35, R38, R39). -/
def MapEntry.inSpace (m : MapEntry) : Prop :=
  m.grant.base % granuleBytes = 0 ∧ m.grant.base + m.live.bytes ≤ nodeSpace

/-- The two lists a grant stands in (R13, R36, R39): a window's grants by node number, at most one for each; a node's
map by node base without overlap, at most 32 entries, and in it exactly the node's LISTED and REVOKING grants, each
once. -/
structure State.MapsOrdered (s : State) : Prop where
  byNode : ∀ w v, (s.window w).life = some v → v.grants.Pairwise fun g h => g.node < h.node
  listed : ∀ n w, w ∈ s.map n ↔ ∃ v g, s.grant w n = some (v, g) ∧ g.state ≠ .draining
  once : ∀ n, (s.map n).Nodup
  bounded : ∀ n, (s.map n).length ≤ 32
  byBase : ∀ n, (s.mapEntries n).Pairwise MapEntry.before
  inSpace : ∀ n, ∀ m ∈ s.mapEntries n, m.inSpace

/-- The transaction records of a window (R9, R76). -/
def State.recordsOf (s : State) (w : WindowId) : List Transaction := s.transactions.filter fun x => x.window == w

/-- The hold entries of a node that name a window (R11). -/
def State.heldUnder (s : State) (w : WindowId) (n : NodeId) : List HoldEntry := (s.hold n).filter fun e => e.window == w

/-- An entry's tag keeps the request it stands for, which lies in the range of the entry's own grant (R81, R96). -/
def HoldEntry.standsFor (e : HoldEntry) (x : TagEntry) (m : MapEntry) : Prop :=
  x.window = e.window ∧ x.chunk = e.chunk ∧ x.addr = m.grant.base + x.offset ∧ 1 ≤ x.len ∧
    x.offset + x.len ≤ m.live.bytes

/-- The law of R9: the counts of a window and of each of its grants are those of the transaction records and hold
entries (R10, R11). Every record is counted by a grant that stands, and every entry by one that is listed in its node's
map (R106), whose range holds the entry's request (R99 step 1). -/
structure State.CountsAgree (s : State) : Prop where
  windowExecuting : ∀ w v, (s.window w).life = some v → v.executing = (s.recordsOf w).length
  windowHeld : ∀ w v, (s.window w).life = some v → v.held = (allNodes.map fun n => (s.heldUnder w n).length).sum
  grantExecuting : ∀ w n v g, s.grant w n = some (v, g) →
    g.executing = ((s.recordsOf w).filter fun x => x.node == n).length
  grantHeld : ∀ w n v g, s.grant w n = some (v, g) → g.held = (s.heldUnder w n).length
  recordGrant : ∀ x ∈ s.transactions, (s.grant x.window x.node).isSome
  entryListed : ∀ n, ∀ e ∈ s.hold n, e.window ∈ s.map n
  entryRequest : ∀ n, ∀ e ∈ s.hold n, ∃ x m, s.tag n e.tag = some x ∧ s.mapEntry n e.window = some m ∧ e.standsFor x m

/-- The canonical form of the pool's lists. -/
def State.PoolCanonical (s : State) : Prop := s.pool.wf = true

end Sys2Proof.Machine
end

