-- ==== Sys2Proof/Certificates/Slice0/Obligations.lean ====
section
/-! DEFINITION. The statements for the provers. -/

section Statements

open Sys2Proof Sys2Proof.Machine

/-! ### Steps, time and reset -/

/-- A step takes the command at the front of the queue and runs it on the queue's rest (the queue is the model's, log
2). -/
def Obligations.StepRunsFrontCommand : Prop :=
  ∀ (c : Instr) (rest : List Instr) (s : State),
    step { s with pending := c :: rest } = exec c { s with pending := rest }

/-- Time is the model's (log 5): on an empty queue a microsecond passes, unless a waited-for time is due or reset is
held, and no timed event is taken before the time it waits for while an earlier one is still waited for. -/
def Obligations.TimePassesInOrder : Prop :=
  (∀ s : State, s.pending = [] →
      (s.resetHeld = false → (∀ t ∈ s.timers, s.now < t) → step s = .next { s with now := s.now + 1 }) ∧
      (s.resetHeld = false → (∃ t ∈ s.timers, t ≤ s.now) → step s = .next s) ∧
      (s.resetHeld = true → step s = .next s)) ∧
  ∀ (s : State) (x : Nat), x ∈ s.timers → s.resetHeld = false →
    (∀ n, (∀ e ∈ s.hold n, x < e.expiry) → exec (.holdExpiry n) s = .next s) ∧
    (∀ w n time, s.deadlineOf w n = some time → x < time → exec (.revokeDeadline w n) s = .next s) ∧
    ∀ time, s.engine.phase = .pacing time → x < time → exec .pacingEnd s = .next s

/-- No command or event stops the part (one that cannot arise changes nothing, log 2), and while reset is held none
but reset and its release acts (R165). -/
def Obligations.EventsAnswerNext : Prop :=
  (∀ (i : Instr) (s : State), ∃ t, exec i s = .next t) ∧
  ∀ (i : Instr) (s : State), s.resetHeld = true → (∀ cause, i ≠ .deviceReset cause) →
    (∀ psz booten, i ≠ .resetRelease psz booten) → exec i s = .next s

/-- The records' values after device reset, as the chapters' tables give them, and what the slots read. -/
def Obligations.ResetValues : Prop :=
  (∀ w, State.reset.window w = { generation := 0, life := none }) ∧
  (∀ n, State.reset.map n = [] ∧ State.reset.hold n = [] ∧ State.reset.capture n = none ∧
    State.reset.link n = .down ∧ (State.reset.port n).identity = none ∧ (State.reset.port n).standing = .opened ∧
    (State.reset.port n).counter = 0 ∧ (State.reset.port n).outbound = []) ∧
  (∀ n t, State.reset.tag n t = none) ∧ State.reset.transactions = [] ∧
  (∀ j, State.reset.slot j = .idle) ∧ State.reset.engine = { phase := .idle, last := 3 } ∧
  (∀ i, State.reset.reasons i = 0) ∧ (∀ c, State.reset.channel c = []) ∧
  State.reset.settings.holdLimit = 2000 ∧ State.reset.settings.revokeLimit = 100 ∧
  State.reset.settings.copyPacing = 0 ∧ State.reset.settings.fenceOnRevokeTimeout = false ∧
  State.reset.settings.deviceEnable = true ∧ State.reset.settings.nodeEnable = true ∧
  State.reset.settings.jobEnable = true ∧ State.reset.settings.windowEnable = true ∧
  State.reset.settings.commandEnable = true ∧ State.reset.bootStatus = ⟨.pending, none⟩ ∧
  State.reset.readSlot 0 = 0x00000011#32 ∧ (∀ k : Fin 16, 1 ≤ k.val → k.val ≤ 11 → State.reset.readSlot k = 0) ∧
  State.reset.readSlot 12 = 0x00004744#32 ∧ State.reset.readSlot 13 = 0x00000001#32

/-- Device reset returns every record to its reset value. From the pin the pool keeps its bytes and marks, except that
the bytes of abandoned WRITEs are marked; at power-on its values are those of a new power cycle (R165, R26, R22; the
cause operand and the free values of a power cycle are the model's, logs 6 to 8 and 28). The release of reset samples
the straps and fixes the pool size (R166, R27; the release as an event of its own is the model's, log 3). -/
def Obligations.ResetAndReleaseComplete : Prop :=
  (∀ s : State, ∃ p,
      exec (.deviceReset .pin) s =
        .next { State.reset with pending := s.pending, pool := p, powerCycle := s.powerCycle } ∧
      (∀ a, p.marked a = true ↔ s.pool.marked a = true ∨
        ∃ c, ∃ op ∈ s.channel c, op.kind = .write ∧ op.addr ≤ a ∧ a < op.addr + op.len) ∧
      ∀ a, (∀ c, ∀ op ∈ s.channel c, op.kind = .write → a < op.addr ∨ op.addr + op.len ≤ a) →
        p.value s.powerCycle a = s.pool.value s.powerCycle a) ∧
  (∀ s : State,
    exec (.deviceReset .powerOn) s =
      .next { State.reset with pending := s.pending, powerCycle := s.powerCycle + 1 } ∧
    ∀ a, State.reset.pool.value (s.powerCycle + 1) a = Config.powerOnByte (s.powerCycle + 1) a) ∧
  ∀ (s : State) (psz : BitVec 3) (booten : Bool), s.resetHeld = true → ∃ t,
    exec (.resetRelease psz booten) s = .next t ∧
    t = { s with resetHeld := false, poolCode := psz, bootEnable := booten, freeList := t.freeList } ∧
    t.freeList = [⟨0, t.granules⟩] ∧
    t.granules = (if psz = 1 then 4096 else if psz = 2 then 8192 else if psz = 3 then 16384
      else if psz = 4 then 32768 else 2048)

/-! ### The management port -/

/-- A write to COMMAND while BUSY and BOOTING are clear takes the command, whatever its code (R151). -/
def Obligations.CommandIsTaken : Prop :=
  ∀ (i : Instr) (code : Word) (s : State), commandRow i = some code → s.portFree →
    exec i s = .next { s with commandSlot := code, taken := some ⟨code, s.params⟩, err := false, cmdDone := false }

/-- While BUSY or BOOTING is set, a write to COMMAND or to a PARAM slot is ignored and sets OVERRUN. A write to a
PARAM slot of a free port is stored, and a write to a read-only slot is ignored and sets no flag. The two slots that
PARAM_WRITE does not name act as their own rows do (R150, R153; the last is the model's choice, log 20). -/
def Obligations.SlotWritesTakeEffect : Prop :=
  (∀ (s : State), s.resetHeld = false → (s.booting = true ∨ s.taken.isSome) →
      (∀ i code, commandRow i = some code → exec i s = .next { s with overrun := true }) ∧
      ∀ (slot : Fin 16) (value : Word), 3 ≤ slot.val → slot.val ≤ 10 →
        exec (.paramWrite slot value) s = .next { s with overrun := true }) ∧
  (∀ (s : State) (slot : Fin 16) (k : Fin 8) (value : Word), s.portFree → slot.val = k.val + 3 →
    exec (.paramWrite slot value) s = .next { s with params := Table.put s.params k value }) ∧
  (∀ (s : State) (slot : Fin 16) (value : Word), slot.val ∈ [1, 11, 12, 13, 14, 15] →
    exec (.paramWrite slot value) s = .next s) ∧
  ∀ (s : State) (value : Word),
    exec (.paramWrite 0 value) s = exec (.softReset value) s ∧
    exec (.paramWrite 2 value) s = exec (.badCommand value) s

/-- A CONTROL write clears OVERRUN and CMD_DONE as its value names them, and MINT follows. With bit 7 set it is a soft
reset: the command in progress is abandoned, the handshake and the Attention Set are cleared, the enables are set on
and every other record stays as it is (R154, R164, R157, R171). That the three CONTROL rows act alike, each by the value
it writes and not by its name, is the model's reading (log 20). -/
def Obligations.ControlWriteActs : Prop :=
  (∀ (s : State) (value : Word), s.resetHeld = false → ∃ t,
      exec (.clearOverrun value) s = .next t ∧ exec (.clearCmdDone value) s = .next t ∧
      exec (.softReset value) s = .next t ∧
      (value.getLsbD 7 = false →
        t = { s with overrun := s.overrun && !value.getLsbD 0, cmdDone := s.cmdDone && !value.getLsbD 1 } ∧
        (value.getLsbD 1 = true → t.mint = s.attn)) ∧
      (value.getLsbD 7 = true → t.overrun = false ∧ t.cmdDone = false) ∧
      (value.getLsbD 0 = false → value.getLsbD 1 = false → value.getLsbD 7 = false → t = s)) ∧
  ∀ (s : State) (value : Word), s.resetHeld = false → value.getLsbD 7 = true → ∃ t,
    exec (.softReset value) s = .next t ∧
    t = { s with
      taken := none
      errorCode := if s.taken.isSome then .done else s.errorCode
      err := s.err && s.taken.isNone
      params := (s.taken.map fun c => c.params).getD s.params
      overrun := false
      cmdDone := false
      attention := Table.fill 73 0
      settings := { s.settings with
        deviceEnable := true
        nodeEnable := true
        jobEnable := true
        windowEnable := true
        commandEnable := true } } ∧
    t.mint = false ∧ t.busy = s.booting

/-- A completion event writes results, code, ERR and CMD_DONE and clears BUSY; a code other than DONE has changed no
record (R152, section 9.2.1). An unknown code completes BAD_COMMAND with no results (R151, R171). With no command in
progress there is no completion to take (the model's choice, log 2). -/
def Obligations.CompletionWritesSlots : Prop :=
  (∀ (s : State) (c : Taken), s.resetHeld = false → s.taken = some c → ∃ u code results,
      exec .commandCompletion s = .next (u.completed code results) ∧ (code ≠ .done → u = s)) ∧
  (∀ (s : State) (code : Word) (p : Vector Word 8), s.resetHeld = false → s.taken = some ⟨code, p⟩ →
      (∀ c : Cmd, c.code ≠ code) → exec .commandCompletion s = .next (s.completed .badCommand [])) ∧
  ∀ s : State, s.taken = none → exec .commandCompletion s = .next s

/-- NOP is taken with BUSY set and completes DONE with no results and no change to any record (R155). -/
def Obligations.NopCompletes : Prop :=
  (∀ s : State, s.portFree → ∃ t, exec .nop s = .next t ∧ t.busy = true ∧ t.completing .nop s.params) ∧
  ∀ (s : State) (p : Vector Word 8), s.completing .nop p →
    exec .commandCompletion s = .next (s.completed .done [])

/-- SET TIMERS sets all three timers and returns those that stood before, or changes none (R161). -/
def Obligations.SetTimersCompletes : Prop :=
  (∀ s : State, s.portFree → ∃ t, exec .setTimers s = .next t ∧ t.busy = true ∧ t.completing .setTimers s.params) ∧
  ∀ (s : State) (p : Vector Word 8), s.completing .setTimers p →
    (param p 0 ≤ 65535 → param p 1 ≤ 65535 → param p 2 ≤ 255 →
      exec .commandCompletion s = .next
        ({ s with settings := { s.settings with
            holdLimit := BitVec.ofNat 16 (param p 0)
            revokeLimit := BitVec.ofNat 16 (param p 1)
            copyPacing := BitVec.ofNat 8 (param p 2) } }.completed .done
          [slotOf s.settings.holdLimit.toNat, slotOf s.settings.revokeLimit.toNat,
            slotOf s.settings.copyPacing.toNat])) ∧
    (65535 < param p 0 ∨ 65535 < param p 1 ∨ 255 < param p 2 →
      exec .commandCompletion s = .next (s.completed .badParam []))

/-- SET POLICY sets all six settings and returns those that stood before, or changes none (R162). -/
def Obligations.SetPolicyCompletes : Prop :=
  (∀ s : State, s.portFree → ∃ t, exec .setPolicy s = .next t ∧ t.busy = true ∧ t.completing .setPolicy s.params) ∧
  ∀ (s : State) (p : Vector Word 8), s.completing .setPolicy p →
    ((∀ k : Fin 8, k.val < 6 → param p k ≤ 1) → ∃ t,
      exec .commandCompletion s = .next t ∧
      t = { s with settings := { s.settings with
            fenceOnRevokeTimeout := param p 0 == 1
            deviceEnable := param p 1 == 1
            nodeEnable := param p 2 == 1
            jobEnable := param p 3 == 1
            windowEnable := param p 4 == 1
            commandEnable := param p 5 == 1 } }.completed .done
          [flagSlot s.settings.fenceOnRevokeTimeout, flagSlot s.settings.deviceEnable, flagSlot s.settings.nodeEnable,
            flagSlot s.settings.jobEnable, flagSlot s.settings.windowEnable, flagSlot s.settings.commandEnable] ∧
      t.cmdDone = true ∧ t.mint = (t.attn || param p 5 == 1)) ∧
    ((∃ k : Fin 8, k.val < 6 ∧ 1 < param p k) →
      exec .commandCompletion s = .next (s.completed .badParam []))

/-- IDENTIFY reports the identity, the pool size, the boot-enable strap, the boot status and the fixed counts (R163;
that the bits above the boot entry read 0 and a high strap reads 1 is the model's choice, logs 30 and 31). -/
def Obligations.IdentifyReports : Prop :=
  ∀ (s : State) (p : Vector Word 8), s.completing .identify p →
    exec .commandCompletion s = .next (s.completed .done
      [0x00004744#32, 0x00000001#32, slotOf s.granules, flagSlot s.bootEnable,
        slotOf (s.bootStatus.code.code + 256 * (s.bootStatus.entry.map BootEntry.code).getD 255), 0x20044004#32])

/-- GET ATTENTION reports the first source with a reason pending, and clears nothing (R158; the slots of an absent
source are those of log 17). ACK ATTENTION clears the named reasons on the one source, releases a FINISHED slot it
names, and refuses what is no source or no reason of the class (R159, R146). -/
def Obligations.AttentionCommandsComplete : Prop :=
  (∀ (s : State) (p : Vector Word 8), s.completing .getAttention p →
      ((∀ i, s.reasons i = 0) →
        exec .commandCompletion s = .next (s.completed .done [absentSlot, 0, 0, 0])) ∧
      ∀ i, s.reasons i ≠ 0 → (∀ k < i, s.reasons k = 0) → ∃ detail,
        exec .commandCompletion s = .next (s.completed .done
          [slotOf i.val, slotOf (s.reasons i).toNat, detail,
            slotOf ((List.finRange 73).filter fun k => s.reasons k != 0).length]) ∧
        (i.val = 0 → detail = s.bootStatus.word) ∧
        (∀ j : SlotId, i.val = 5 + j.val → detail = slotOf (s.slot j).code) ∧
        ∀ w : WindowId, i.val = 9 + w.val → detail = slotOf (s.window w).generation.toNat) ∧
  ∀ (s : State) (p : Vector Word 8), s.completing .ackAttention p →
    (72 < param p 0 → exec .commandCompletion s = .next (s.completed .badParam [])) ∧
    ∀ i : Fin 73, param p 0 = i.val →
      ((∃ b, (Table.get p 1).getLsbD b = true ∧ (sourceClass i.val).mask.getLsbD b = false) →
        exec .commandCompletion s = .next (s.completed .badParam [])) ∧
      ((∀ b, (Table.get p 1).getLsbD b = true → (sourceClass i.val).mask.getLsbD b = true) → ∃ slots,
        exec .commandCompletion s = .next
          ({ s with
              attention := Table.put s.attention i (s.reasons i &&& ~~~((Table.get p 1).setWidth 6))
              slots := slots }.completed .done
            [slotOf (s.reasons i).toNat, slotOf (s.reasons i &&& ~~~((Table.get p 1).setWidth 6)).toNat]) ∧
        ∀ j : SlotId, Table.get slots j =
          if i.val = 5 + j.val ∧ Table.get p 1 ≠ 0 ∧ (s.slot j).isFinished = true then .idle else s.slot j)

/-- The attention summary, ATTN and MINT follow the pending reasons and the enables (R157). -/
def Obligations.OutputsFollowAttention : Prop :=
  ∀ s : State,
    ((s.readSlot 11).getLsbD 0 = true ↔ s.reasons 0 ≠ 0) ∧
    ((s.readSlot 11).getLsbD 1 = true ↔ ∃ n, s.reasons (nodeSource n) ≠ 0) ∧
    ((s.readSlot 11).getLsbD 2 = true ↔ ∃ j, s.reasons (jobSource j) ≠ 0) ∧
    ((s.readSlot 11).getLsbD 3 = true ↔ ∃ w, s.reasons (windowSource w) ≠ 0) ∧
    (s.attn = true ↔
      (s.settings.deviceEnable = true ∧ s.reasons 0 ≠ 0) ∨
      (s.settings.nodeEnable = true ∧ ∃ n, s.reasons (nodeSource n) ≠ 0) ∨
      (s.settings.jobEnable = true ∧ ∃ j, s.reasons (jobSource j) ≠ 0) ∨
      (s.settings.windowEnable = true ∧ ∃ w, s.reasons (windowSource w) ≠ 0)) ∧
    (s.mint = true ↔ s.attn = true ∨ (s.cmdDone = true ∧ s.settings.commandEnable = true)) ∧
    ((s.readSlot 0).getLsbD 0 = true ↔ s.booting = true ∨ s.taken.isSome) ∧
    ((s.readSlot 0).getLsbD 1 = s.err ∧ (s.readSlot 0).getLsbD 2 = s.attn ∧ (s.readSlot 0).getLsbD 3 = s.overrun ∧
      (s.readSlot 0).getLsbD 4 = s.booting ∧ (s.readSlot 0).getLsbD 5 = s.cmdDone)

/-! ### Windows and extents -/

/-- The window check refuses each window command by the first step that fails, changes no record, and returns what R8
lists (R6, R7, R8). -/
def Obligations.WindowCheckRefuses : Prop :=
  ∀ (s : State) (c : Cmd) (allowed : List Nat) (p : Vector Word 8),
    (c, allowed) ∈ windowCommands → s.completing c p →
    (63 < param p 0 ∨ 255 < param p 1 → exec .commandCompletion s = .next (s.completed .badParam [])) ∧
    ∀ w : WindowId, param p 0 = w.val → param p 1 ≤ 255 →
      ((s.window w).life = none →
        exec .commandCompletion s = .next (s.completed .noWindow [slotOf (s.window w).generation.toNat])) ∧
      ∀ v, (s.window w).life = some v →
        (param p 1 ≠ (s.window w).generation.toNat →
          exec .commandCompletion s = .next
            (s.completed .stale [slotOf (s.window w).generation.toNat, slotOf v.state.code])) ∧
        (param p 1 = (s.window w).generation.toNat → v.state.code ∉ allowed →
          exec .commandCompletion s = .next (s.completed .wrongState [slotOf v.state.code]))

/-- CREATE WINDOW makes the lowest FREE window ACTIVE on the extent allocated, or refuses by the first check that
fails (R16, R17). -/
def Obligations.CreateWindowCompletes : Prop :=
  ∀ (s : State) (p : Vector Word 8), s.completing .createWindow p →
    (param p 0 = 0 ∨ 4096 < param p 0 ∨ 1 < param p 1 ∨ (param p 1 = 1 ∧ s.granules < param p 2 + param p 0) →
      exec .commandCompletion s = .next (s.completed .badParam [])) ∧
    (1 ≤ param p 0 → param p 0 ≤ 4096 → param p 1 ≤ 1 → (param p 1 = 1 → param p 2 + param p 0 ≤ s.granules) →
      ((∀ w, (s.window w).life ≠ none) → exec .commandCompletion s = .next (s.completed .directoryFull [])) ∧
      ∀ w, (s.window w).life = none → (∀ x < w, (s.window x).life ≠ none) →
        (param p 1 = 0 → firstFit (param p 0) s.freeList = none →
          exec .commandCompletion s = .next (s.completed .noSpace [])) ∧
        (param p 1 = 1 → allocateExplicit ⟨param p 2, param p 0⟩ s.freeList = none →
          exec .commandCompletion s = .next (s.completed .overlap [])) ∧
        ∀ x free,
          (param p 1 = 0 ∧ firstFit (param p 0) s.freeList = some (x, free)) ∨
            (param p 1 = 1 ∧ x = ⟨param p 2, param p 0⟩ ∧ allocateExplicit x s.freeList = some free) →
          exec .commandCompletion s = .next
            ((({ s with freeList := free }).withLife w
              { state := .active
                home := x
                grants := []
                executing := 0
                held := 0
                quietPending := false }).completed .done
              [slotOf w.val, slotOf (s.window w).generation.toNat, slotOf x.base, slotOf x.len]))

/-- QUERY WINDOW returns the window record, and QUERY FREE the three figures and the entry at its index or BAD_PARAM
with the figures; neither changes anything (R19, R33; that bits 31:9 of QUERY WINDOW P7 read 0, and that bit 8 is 1
for a set quiet-pending flag, is the model's choice, logs 30 and 31). -/
def Obligations.DirectoryQueriesReport : Prop :=
  (∀ (s : State) (p : Vector Word 8) (w : WindowId) (v : Live), s.completing .queryWindow p → s.names p w v →
      exec .commandCompletion s = .next (s.completed .done
        [slotOf v.state.code, slotOf (s.window w).generation.toNat, slotOf v.home.base, slotOf v.home.len,
          slotOf (v.grantCode 0 + 256 * v.grantCode 1 + 65536 * v.grantCode 2 + 16777216 * v.grantCode 3),
          slotOf v.executing, slotOf v.held,
          slotOf ((v.state.jobSlot.map Fin.val).getD 255 + (if v.quietPending then 256 else 0))])) ∧
  ∀ (s : State) (p : Vector Word 8) (largest : Nat), s.completing .queryFree p →
    (∀ e ∈ s.freeList, e.len ≤ largest) → (s.freeList = [] ∧ largest = 0 ∨ ∃ e ∈ s.freeList, e.len = largest) →
    (∀ e, s.freeList[param p 0]? = some e →
      exec .commandCompletion s = .next (s.completed .done
        [slotOf s.freeList.length, slotOf (s.freeList.map fun e => e.len).sum, slotOf largest, slotOf e.base,
          slotOf e.len])) ∧
    (s.freeList.length ≤ param p 0 →
      exec .commandCompletion s = .next (s.completed .badParam
        [slotOf s.freeList.length, slotOf (s.freeList.map fun e => e.len).sum, slotOf largest]))

/-- First fit carves from the low end of the lowest entry long enough, and fails when no entry is. Explicit allocation
replaces the entry that holds the extent by what the extent leaves over, and fails when none holds it. A released
extent takes its place in base order and merges with the entries it touches (R29, R30, R31). -/
def Obligations.FreeExtentListOperations : Prop :=
  (∀ (len : Nat),
      (∀ (below : List Extent) (e : Extent) (above : List Extent), (∀ x ∈ below, x.len < len) →
        (e.len = len → firstFit len (below ++ e :: above) = some (⟨e.base, len⟩, below ++ above)) ∧
        (len < e.len →
          firstFit len (below ++ e :: above) =
            some (⟨e.base, len⟩, below ++ ⟨e.base + len, e.len - len⟩ :: above))) ∧
      ∀ l : List Extent, (∀ x ∈ l, x.len < len) → firstFit len l = none) ∧
  (∀ (b n : Nat),
    (∀ (below : List Extent) (e m : Nat) (above : List Extent),
      (∀ x ∈ below, ¬(x.base ≤ b ∧ b + n ≤ x.base + x.len)) → e ≤ b → b + n ≤ e + m →
      allocateExplicit ⟨b, n⟩ (below ++ ⟨e, m⟩ :: above) =
        some (below ++ (if b = e ∧ n = m then []
          else if b = e then [⟨b + n, m - n⟩]
          else if b + n = e + m then [⟨e, b - e⟩]
          else [⟨e, b - e⟩, ⟨b + n, e + m - b - n⟩]) ++ above)) ∧
    ∀ l : List Extent, (∀ x ∈ l, ¬(x.base ≤ b ∧ b + n ≤ x.base + x.len)) → allocateExplicit ⟨b, n⟩ l = none) ∧
  ∀ (b n : Nat) (below above : List Extent),
    (∀ x ∈ below, x.base + x.len < b) → (∀ x ∈ above, b + n < x.base) →
    release ⟨b, n⟩ (below ++ above) = below ++ ⟨b, n⟩ :: above ∧
    (∀ e, e ≤ b → release ⟨b, n⟩ (below ++ ⟨e, b - e⟩ :: above) = below ++ ⟨e, b + n - e⟩ :: above) ∧
    (∀ k, release ⟨b, n⟩ (below ++ ⟨b + n, k⟩ :: above) = below ++ ⟨b, n + k⟩ :: above) ∧
    ∀ e k, e ≤ b →
      release ⟨b, n⟩ (below ++ ⟨e, b - e⟩ :: ⟨b + n, k⟩ :: above) = below ++ ⟨e, b + n + k - e⟩ :: above

/-! ### Grants and node maps -/

/-- GRANT past its checks makes a LISTED grant in the window's list and the node's map, in their orders, and changes
nothing else; otherwise it refuses by the first check of R45 that fails, changes no record and returns what R45 lists
(R45, R46, R40, R13). -/
def Obligations.GrantCompletes : Prop :=
  (∀ (s : State) (p : Vector Word 8) (w : WindowId) (v : Live) (n : NodeId) (r : Rights),
      s.completing .grant p → s.names p w v → v.state ≠ .retiring → param p 2 = n.val → param p 5 = r.code →
      paramAddress p 3 4 % granuleBytes = 0 → paramAddress p 3 4 + v.bytes ≤ nodeSpace → 1 ≤ v.home.len →
      v.grant n = none → (s.map n).length < 32 →
      (∀ m ∈ s.mapEntries n, paramAddress p 3 4 + v.bytes ≤ m.grant.base ∨
        m.grant.base + m.live.bytes ≤ paramAddress p 3 4) →
      exec .commandCompletion s = .next
        ((({ s with maps := Table.put s.maps n (insertRef (s.baseOf n) w (paramAddress p 3 4) (s.map n)) }).withLife w
            { v with grants := insertGrant (.fresh n (paramAddress p 3 4) r) v.grants }).completed .done
          (addressSlots (paramAddress p 3 4 + v.bytes - 1) ++
            [slotOf ((s.map n).length + 1), slotOf (s.window w).generation.toNat]))) ∧
  (∀ (s : State) (p : Vector Word 8) (w : WindowId) (v : Live),
      s.completing .grant p → s.names p w v → v.state ≠ .retiring →
      (3 < param p 2 ∨ (param p 5 ≠ 1 ∧ param p 5 ≠ 2) ∨ nodeSpace ≤ paramAddress p 3 4 ∨
          paramAddress p 3 4 % granuleBytes ≠ 0 ∨ nodeSpace < paramAddress p 3 4 + v.bytes →
        exec .commandCompletion s = .next (s.completed .badParam [])) ∧
      ∀ (n : NodeId) (r : Rights), param p 2 = n.val → param p 5 = r.code → paramAddress p 3 4 < nodeSpace →
        paramAddress p 3 4 % granuleBytes = 0 → paramAddress p 3 4 + v.bytes ≤ nodeSpace →
        (∀ g, v.grant n = some g →
          exec .commandCompletion s = .next (s.completed .grantExists
            ([slotOf g.state.code] ++ addressSlots g.base ++ [slotOf g.rights.code]))) ∧
        (v.grant n = none → 32 ≤ (s.map n).length →
          exec .commandCompletion s = .next (s.completed .mapFull [slotOf (s.map n).length])) ∧
        ∀ (below : List MapEntry) (m : MapEntry) (above : List MapEntry),
          v.grant n = none → (s.map n).length < 32 → s.mapEntries n = below ++ m :: above →
          (∀ x ∈ below, paramAddress p 3 4 + v.bytes ≤ x.grant.base ∨
            x.grant.base + x.live.bytes ≤ paramAddress p 3 4) →
          m.grant.base < paramAddress p 3 4 + v.bytes → paramAddress p 3 4 < m.grant.base + m.live.bytes →
          exec .commandCompletion s = .next (s.completed .overlap
            ([slotOf m.window.val, slotOf (s.window m.window).generation.toNat] ++ addressSlots m.grant.base ++
              [slotOf (s.map n).length]))) ∧
  (∀ (baseOf : WindowId → Nat) (w : WindowId) (base : Nat) (below above : List WindowId),
    (∀ x ∈ below, baseOf x ≤ base) → (∀ x ∈ above, base < baseOf x) →
    insertRef baseOf w base (below ++ above) = below ++ w :: above) ∧
  ∀ (g : GrantRecord) (below above : List GrantRecord),
    (∀ x ∈ below, x.node < g.node) → (∀ x ∈ above, g.node < x.node) →
    insertGrant g (below ++ above) = below ++ g :: above

/-- SET RIGHTS changes the rights of a LISTED or REVOKING grant and nothing else, or refuses (R48, R49). -/
def Obligations.SetRightsCompletes : Prop :=
  ∀ (s : State) (p : Vector Word 8) (w : WindowId) (v : Live),
    s.completing .setRights p → s.names p w v → v.state ≠ .retiring →
    (3 < param p 2 ∨ (param p 3 ≠ 1 ∧ param p 3 ≠ 2) →
      exec .commandCompletion s = .next (s.completed .badParam [])) ∧
    ∀ (n : NodeId) (r : Rights), param p 2 = n.val → param p 3 = r.code →
      (v.grant n = none → exec .commandCompletion s = .next (s.completed .noGrant [])) ∧
      ∀ g, v.grant n = some g →
        (g.state = .draining → exec .commandCompletion s = .next
          (s.completed .inProgress [slotOf 3, slotOf g.rights.code])) ∧
        (g.state ≠ .draining → exec .commandCompletion s = .next
          ((s.withLife w
            { v with grants := v.grants.map fun x => if x.node = n then { x with rights := r } else x }).completed
            .done [slotOf g.rights.code, slotOf g.state.code, slotOf g.executing, slotOf g.held]))

/-- QUERY GRANT returns the grant record in every state of the window, and LOOKUP the entry that holds an address or
that stands at an index; neither changes anything (R50, R51, R52). The bits of their packed slots that section 11.1.2
gives no content read 0, and a set presence bit is 1, by the model's choice (logs 30 and 31). -/
def Obligations.GrantQueriesReport : Prop :=
  (∀ (s : State) (p : Vector Word 8) (w : WindowId) (v : Live), s.completing .queryGrant p → s.names p w v →
      (3 < param p 2 → exec .commandCompletion s = .next (s.completed .badParam [])) ∧
      ∀ n : NodeId, param p 2 = n.val →
        (v.grant n = none → exec .commandCompletion s = .next (s.completed .noGrant [])) ∧
        ∀ g, v.grant n = some g → ∃ state deadline,
          exec .commandCompletion s = .next (s.completed .done
            ([state] ++ addressSlots g.base ++ addressSlots (g.base + v.bytes - 1) ++
              [deadline, slotOf g.executing, slotOf g.held])) ∧
          (∀ number limit, g.state = .revoking number limit →
            state = slotOf (2 + 256 * g.rights.code + 65536 * number.toNat + 16777216) ∧
            (limit = none → deadline = 0) ∧
            ∀ time, limit = some time → s.now < time →
              deadline = slotOf ((time - s.now + 999) / 1000)) ∧
          (g.state = .listed → state = slotOf (1 + 256 * g.rights.code + 65536 * 255) ∧ deadline = absentSlot) ∧
          (g.state = .draining → state = slotOf (3 + 256 * g.rights.code + 65536 * 255) ∧ deadline = absentSlot)) ∧
  (∀ (s : State) (p : Vector Word 8), s.completing .lookup p →
    (3 < param p 0 ∨ 1 < param p 1 → exec .commandCompletion s = .next (s.completed .badParam [])) ∧
    ∀ n : NodeId, param p 0 = n.val →
      (param p 1 = 0 →
        (nodeSpace ≤ paramAddress p 2 3 → exec .commandCompletion s = .next (s.completed .badParam [])) ∧
        (paramAddress p 2 3 < nodeSpace → ∀ m, s.entryAt n (paramAddress p 2 3) = some m →
          exec .commandCompletion s = .next
            (s.completed .done (s.lookupResults n m (paramAddress p 2 3 - m.grant.base)))) ∧
        (paramAddress p 2 3 < nodeSpace → s.entryAt n (paramAddress p 2 3) = none →
          ((∀ m ∈ s.mapEntries n, m.grant.base ≤ paramAddress p 2 3) →
            exec .commandCompletion s = .next
              (s.completed .noWindow [slotOf (s.map n).length, absentSlot, absentSlot])) ∧
          ∀ below m above, s.mapEntries n = below ++ m :: above →
            (∀ x ∈ below, x.grant.base ≤ paramAddress p 2 3) → paramAddress p 2 3 < m.grant.base →
            exec .commandCompletion s = .next
              (s.completed .noWindow ([slotOf (s.map n).length] ++ addressSlots m.grant.base)))) ∧
      (param p 1 = 1 →
        (∀ m, (s.mapEntries n)[param p 2]? = some m →
          exec .commandCompletion s = .next (s.completed .done (s.lookupResults n m 0))) ∧
        ((s.mapEntries n)[param p 2]? = none →
          exec .commandCompletion s = .next (s.completed .badParam [slotOf (s.map n).length])))) ∧
  ∀ (s : State) (n : NodeId) (m : MapEntry) (offset : Nat), (s.map n).length ≤ 32 →
    s.lookupResults n m offset =
      [slotOf (m.window.val + 256 * (s.window m.window).generation.toNat + 65536 * m.live.state.code +
          16777216 * m.grant.state.code),
        slotOf (m.grant.rights.code + 256 * (m.live.state.jobSlot.map Fin.val).getD 255 +
          65536 * (s.map n).length)] ++
      addressSlots m.grant.base ++ addressSlots offset ++ addressSlots (m.live.home.base * 2097152 + offset)

/-! ### The node links -/

/-- Link up takes a port from DOWN to LISTENING and changes nothing else (R60, R54); that a link up outside DOWN, an
event that cannot arise, changes nothing is the model's choice (log 2). The first HELLO of a link records the
identity, raises NODE_UP and NODE_CHANGED, decides the standing and answers WELCOME (R61, R62, R63). -/
def Obligations.LinkComesUp : Prop :=
  (∀ (s : State) (n : NodeId), s.resetHeld = false →
      (s.link n = .down →
        exec (.linkUp n) s = .next { s with ports := Table.put s.ports n { s.port n with link := .listening } }) ∧
      (s.link n ≠ .down → exec (.linkUp n) s = .next s)) ∧
  ∀ (s : State) (n : NodeId) (identity : Word), s.resetHeld = false → s.link n = .listening →
    ∀ admitted : Bool,
    (admitted = true ↔
      (s.port n).standing = .opened ∧ s.booting = false ∧ s.maskInForce.getLsbD n.val = true) →
    exec (.hello n identity) s = .next
      ((s.withPort n
        { link := if admitted then .admitted else .fenced
          identity := some identity
          standing := if (s.port n).standing = .opened then (if s.booting then .waiting else .closed)
            else (s.port n).standing
          counter := (s.port n).counter
          outbound := (s.port n).outbound ++ [.welcome admitted]
          handed := (s.port n).handed }).flagged (nodeSource n)
        (if (s.port n).identity = none ∨ (s.port n).identity = some identity then 0b000001 else 0b000011))

/-- A restart HELLO or a link down abandons the node's tags, empties its hold queue without completions, discards its
outbound queue, and leaves every other port and capture record as it was. Each REVOKING grant of the node leaves the
map and is DRAINING, or is removed with GRANT_REMOVED when nothing executes under it, which completes the retirement of
a window it leaves empty; a LISTED grant stays in the map, and a DRAINING one drains on. A restart updates the
auto-admit standing, a link down leaves it (R63, R65, R66, R89, R107, R116, R120, R122, R126). -/
def Obligations.NodeLossClearsNode : Prop :=
  ∀ (s : State) (n : NodeId) (identity : Word), s.resetHeld = false → s.link n ≠ .down →
    ∀ (i : Instr), (i = .hello n identity ∧ s.link n ≠ .listening) ∨ i = .linkDown n → ∃ t,
      exec i s = .next t ∧
      (∀ tag, t.tag n tag = none) ∧ t.hold n = [] ∧ (∀ w, t.noticeOf n w = none) ∧
      t.transactions = s.transactions.map (fun x => if x.node = n then { x with tag := none } else x) ∧
      (∀ m, m ≠ n → t.port m = s.port m ∧ t.hold m = s.hold m ∧ t.map m = s.map m) ∧
      t.map n = (s.map n).filter (fun w => (s.noticeOf n w).isNone) ∧
      (∀ w v g h, s.grant w n = some (v, g) → h = { g with held := g.held - (s.heldUnder w n).length } →
        (g.state = .listed ∨ g.state = .draining → ∃ a, t.grant w n = some (a, h)) ∧
        ∀ number limit, g.state = .revoking number limit →
          (0 < g.executing → ∃ a, t.grant w n = some (a, { h with state := .draining })) ∧
          (g.executing = 0 → t.grant w n = none ∧ t.isPending (.grantRemoved w) = true ∧
            (v.state = .retiring → (∀ k ∈ v.grants, k.node = n) →
              t.window w = { generation := (s.window w).generation + 1, life := none } ∧
              t.isPending (.retireDone w) = true) ∧
            (v.state ≠ .retiring ∨ (∃ k ∈ v.grants, k.node ≠ n) → (t.window w).life.isSome))) ∧
      (∃ freed : List (WindowId × Live), (freed.map fun x => x.1).Nodup ∧
        (∀ w v, (w, v) ∈ freed ↔ v.state = .retiring ∧ (∀ k ∈ v.grants, k.node = n) ∧
          ∃ g number limit, s.grant w n = some (v, g) ∧ g.state = .revoking number limit ∧ g.executing = 0) ∧
        t.freeList = freed.foldl (fun l x => release x.2.home l) s.freeList) ∧
      t.captures = s.captures ∧ t.channels = s.channels ∧ t.pool = s.pool ∧ t.slots = s.slots ∧
      t.engine = s.engine ∧
      (i = .linkDown n → t.isPending (.nodeDown n) = true ∧
        t.port n = { s.port n with link := .down, outbound := [] }) ∧
      (i = .hello n identity → t.isPending (.nodeUp n) = true ∧
        ((s.port n).identity ≠ none → (s.port n).identity ≠ some identity → t.isPending (.nodeChanged n) = true) ∧
        (t.port n).link = .fenced ∧ (t.port n).identity = some identity ∧ (t.port n).outbound = [.welcome false] ∧
        (t.port n).standing = (if (s.port n).standing = .opened then (if s.booting then .waiting else .closed)
          else (s.port n).standing) ∧
        (t.port n).counter = (s.port n).counter)

/-- ADMIT NODE takes a FENCED port to ADMITTED with ADMIT_NOTICE, and refuses every other state (R67; result slots by
logs 14, 30 and 31). -/
def Obligations.AdmitNodeCompletes : Prop :=
  ∀ (s : State) (p : Vector Word 8), s.completing .admitNode p →
    (3 < param p 0 → exec .commandCompletion s = .next (s.completed .badParam [])) ∧
    ∀ n : NodeId, param p 0 = n.val →
      (s.link n = .fenced → exec .commandCompletion s = .next
        ((s.withPort n
          { s.port n with link := .admitted, outbound := (s.port n).outbound ++ [.admitNotice] }).completed .done
          [slotOf (3 + (if (s.port n).identity.isSome then 256 else 0)), (s.port n).identity.getD absentSlot])) ∧
      (s.link n ≠ .fenced → exec .commandCompletion s = .next
        (s.completed .nodeState
          [slotOf ((s.link n).code + (if (s.port n).identity.isSome then 256 else 0)),
            (s.port n).identity.getD absentSlot]))

/-- FENCE NODE takes an ADMITTED port into FENCING with FENCE_NOTICE and the FENCED completions of its held requests,
or to FENCED with NODE_FENCED when nothing executes, and refuses every other state (R68, R69, R70). Both results carry
the link state and the identity, and DONE the executing count at entry (section 11.1.2, log 14; the coding of the
presence bit and of the bits above it is the model's, logs 30 and 31). -/
def Obligations.FenceNodeCompletes : Prop :=
  ∀ (s : State) (p : Vector Word 8), s.completing .fenceNode p →
    (3 < param p 0 → exec .commandCompletion s = .next (s.completed .badParam [])) ∧
    ∀ n : NodeId, param p 0 = n.val →
      (s.link n ≠ .admitted → exec .commandCompletion s = .next
        (s.completed .nodeState
          [slotOf ((s.link n).code + (if (s.port n).identity.isSome then 256 else 0)),
            (s.port n).identity.getD absentSlot])) ∧
      (s.link n = .admitted → s.TagsAgree → ∃ t : State,
        exec .commandCompletion s = .next (t.completed .done
          [slotOf ((if s.nodeExecuting n = 0 then 2 else 4) + (if (s.port n).identity.isSome then 256 else 0)),
            (s.port n).identity.getD absentSlot, slotOf (s.nodeExecuting n)]) ∧
        t.hold n = [] ∧
        (t.port n).outbound = (s.port n).outbound ++
          .fenceNotice :: ((s.hold n).map fun e => Message.completion e.tag (.fault .fenced)) ∧
        (s.nodeExecuting n = 0 → t.link n = .fenced ∧ t.isPending (.nodeFenced n) = true) ∧
        (s.nodeExecuting n ≠ 0 → t.link n = .fencing) ∧
        (∀ tag x, s.tag n tag = some x → x.phase = .held → t.tag n tag = none) ∧
        t.maps = s.maps ∧ t.transactions = s.transactions ∧ t.captures = s.captures ∧ t.channels = s.channels)

/-- The message at the head of the outbound queue leaves the port, in the bytes of chapter 11 (R58, R172; that the
port remembers them is the model's, log 13). That the event changes nothing while the queue is empty, when it cannot
arise, is the model's choice (log 2). -/
def Obligations.HeadMessageLeaves : Prop :=
  (∀ (s : State) (n : NodeId) (m : Message) (rest : List Message), s.resetHeld = false →
    (s.port n).outbound = m :: rest →
    exec (.handToLinkLayer n) s =
      .next { s with ports := Table.put s.ports n { s.port n with outbound := rest, handed := m.encode } }) ∧
  (∀ (s : State) (n : NodeId), (s.port n).outbound = [] → exec (.handToLinkLayer n) s = .next s) ∧
  Message.encode (.welcome false) = [0x81, 0, 0, 0] ∧ Message.encode (.welcome true) = [0x81, 1, 0, 0] ∧
  Message.encode .admitNotice = [0x84, 0, 0, 0] ∧ Message.encode .fenceNotice = [0x85, 0, 0, 0] ∧
  (∀ (tag : Tag) (data : List Byte),
    Message.encode (.completion tag (.ok data)) = [0x82, BitVec.ofNat 8 tag.val, 0, 0] ++ data) ∧
  (∀ tag : Tag, Message.encode (.completion tag .retry) = [0x82, BitVec.ofNat 8 tag.val, 1, 0]) ∧
  (∀ (tag : Tag) (r : FaultReason),
    Message.encode (.completion tag (.fault r)) = [0x82, BitVec.ofNat 8 tag.val, 2, BitVec.ofNat 8 r.code]) ∧
  ∀ (number : Byte) (base len : Nat), base < nodeSpace → len < 65536 → ∃ l0 l1 b0 b1 b2 b3 b4,
    Message.encode (.revokeNotice number base len) = [0x83, number, l0, l1, b0, b1, b2, b3, b4, 0, 0, 0] ∧
    leValue [l0, l1] = len ∧ leValue [b0, b1, b2, b3, b4] = base

/-- A malformed message is discarded with PROTOCOL, and bytes that are well formed act as their own row (R55, R56,
R172; log 20). A request of a node that is not ADMITTED is discarded with PROTOCOL in LISTENING and answered FENCED in
FENCED and FENCING (R78). A request under an outstanding tag is discarded with PROTOCOL (R79). -/
def Obligations.MisplacedMessagesAreTurnedAway : Prop :=
  (∀ (s : State) (n : NodeId), s.resetHeld = false → s.link n ≠ .down →
      (∀ bytes, Inbound.parse bytes = none →
        exec (.malformedMessage n bytes) s = .next (s.flagged (nodeSource n) 0b010000)) ∧
      ∀ t addr len data, data.length ≠ len.toNat →
        exec (.write n t addr len data) s = .next (s.flagged (nodeSource n) 0b010000)) ∧
  (∀ (s : State) (n : NodeId) (bytes : List Byte),
      (∀ identity, Inbound.parse bytes = some (.hello identity) →
        exec (.malformedMessage n bytes) s = exec (.hello n identity) s) ∧
      (∀ t addr len, Inbound.parse bytes = some (.read t addr len) →
        exec (.malformedMessage n bytes) s = exec (.read n t addr len) s) ∧
      (∀ t addr len data, Inbound.parse bytes = some (.write t addr len data) →
        exec (.malformedMessage n bytes) s = exec (.write n t addr len data) s) ∧
      ∀ number, Inbound.parse bytes = some (.revokeAck number) →
        exec (.malformedMessage n bytes) s = exec (.revokeAck n number) s) ∧
  (∀ (s : State) (k : Kind) (n : NodeId) (t : Tag) (addr : BitVec 40) (len : BitVec 16) (data : List Byte),
      s.resetHeld = false → carries k len data →
      (s.link n = .listening → exec (arrival k n t addr len data) s = .next (s.flagged (nodeSource n) 0b010000)) ∧
      (s.link n = .fenced ∨ s.link n = .fencing →
        exec (arrival k n t addr len data) s = .next (s.answered n (.completion t (.fault .fenced))))) ∧
  ∀ (s : State) (k : Kind) (n : NodeId) (t : Tag) (addr : BitVec 40) (len : BitVec 16) (data : List Byte),
    s.resetHeld = false → carries k len data → s.link n = .admitted → (s.tag n t).isSome →
    exec (arrival k n t addr len data) s = .next (s.flagged (nodeSource n) 0b010000)

/-- Every inbound message that its encoder writes is read back as it was written, and nothing else is well formed
(R172). -/
def Obligations.InboundParseInvertsEncode : Prop :=
  (∀ m : Inbound, m.wellFormed = true → Inbound.parse m.encode = some m) ∧
  ∀ (bytes : List Byte) (m : Inbound), Inbound.parse bytes = some m → m.wellFormed = true ∧ m.encode = bytes

/-! ### The transaction path -/

/-- A request of length 0, over 256, or across a 4 KiB boundary is answered BAD_REQUEST, whatever the node's map holds
(R80). One that no grant covers, a WRITE under READ rights, and a request to a RETIRING window are faulted too; the
last is not captured (R81, R82, R44, R92, R93). -/
def Obligations.FailedChecksAreFaulted : Prop :=
  (∀ (s : State) (k : Kind) (n : NodeId) (t : Tag) (addr : BitVec 40) (len : BitVec 16) (data : List Byte),
      s.resetHeld = false → carries k len data → s.link n = .admitted → s.tag n t = none →
      (len.toNat = 0 ∨ 256 < len.toNat ∨ 4096 < addr.toNat % 4096 + len.toNat) →
      exec (arrival k n t addr len data) s = .next
        ((s.answered n (.completion t (.fault .badRequest))).captureTaken n ⟨t, k, addr.toNat, .badRequest⟩)) ∧
  ∀ (s : State) (k : Kind) (n : NodeId) (t : Tag) (addr : BitVec 40) (len : BitVec 16) (data : List Byte),
    s.resetHeld = false → carries k len data → s.link n = .admitted → s.tag n t = none →
    1 ≤ len.toNat → len.toNat ≤ 256 → addr.toNat % 4096 + len.toNat ≤ 4096 →
    (s.entryAt n addr.toNat = none →
      exec (arrival k n t addr len data) s = .next
        ((s.answered n (.completion t (.fault .noWindow))).captureTaken n ⟨t, k, addr.toNat, .noWindow⟩)) ∧
    ∀ m, s.entryAt n addr.toNat = some m → addr.toNat + len.toNat ≤ m.grant.base + m.live.bytes →
      (k = .write → m.grant.rights = .read →
        exec (arrival k n t addr len data) s = .next
          ((s.answered n (.completion t (.fault .rights))).captureTaken n ⟨t, k, addr.toNat, .rights⟩)) ∧
      (k = .read ∨ m.grant.rights = .readWrite → m.live.state = .retiring →
        exec (arrival k n t addr len data) s = .next
          (s.answered n (.completion t (.fault .windowRetired))))

/-- A request that step 6 holds is answered RETRY when the hold limit is 0 or eight entries stand; otherwise it joins
the tail of the hold queue with its cause, its tag records what the lookup found, and nothing is sent (R82, R83, R97,
R81). -/
def Obligations.BlockedRequestIsHeldOrRetried : Prop :=
  ∀ (s : State) (k : Kind) (n : NodeId) (t : Tag) (addr : BitVec 40) (len : BitVec 16) (data : List Byte)
    (m : MapEntry) (cause : Cause),
    s.resetHeld = false → carries k len data → s.link n = .admitted → s.tag n t = none →
    1 ≤ len.toNat → len.toNat ≤ 256 → addr.toNat % 4096 + len.toNat ≤ 4096 →
    s.entryAt n addr.toNat = some m → addr.toNat + len.toNat ≤ m.grant.base + m.live.bytes →
    (k = .read ∨ m.grant.rights = .readWrite) →
    (m.live.state = .suspended ∧ cause = .suspended ∨
      (∃ j job, m.live.state = .migrating j ∧ k = .write ∧ s.slot j = .copying job true ∧
        job.cursor = (addr.toNat - m.grant.base) / 4096 * 4096 ∧ cause = .chunkBusy) ∨
      (m.live.state = .active ∨ ∃ j, m.live.state = .migrating j ∧ (k = .read ∨ (s.slot j).mark = false ∨
          ∀ job, (s.slot j).job = some job → job.cursor ≠ (addr.toNat - m.grant.base) / 4096 * 4096)) ∧
        (∃ e ∈ s.hold n, e.window = m.window ∧ e.chunk = (addr.toNat - m.grant.base) / 4096) ∧ cause = .behind) →
    (s.settings.holdLimit = 0 ∨ 8 ≤ (s.hold n).length →
      exec (arrival k n t addr len data) s = .next (s.answered n (.completion t .retry))) ∧
    (s.settings.holdLimit ≠ 0 → (s.hold n).length < 8 → ∃ u,
      exec (arrival k n t addr len data) s = .next u ∧
      u = { s with windows := u.windows, holds := u.holds, tags := u.tags } ∧
      u.hold n = s.hold n ++
        [⟨t, m.window, (addr.toNat - m.grant.base) / 4096, cause, s.now + s.settings.holdLimit.toNat⟩] ∧
      (∃ x, u.tag n t = some x ∧ x.phase = .held ∧ x.window = m.window ∧ x.rights = m.grant.rights ∧
        x.offset = addr.toNat - m.grant.base ∧ x.kind = k ∧ x.addr = addr.toNat ∧ x.len = len.toNat ∧
        (k = .write → x.data = some data)) ∧
      (∀ a b, (a, b) ≠ (n, t) → u.tag a b = s.tag a b) ∧ (∀ a, a ≠ n → u.hold a = s.hold a) ∧
      (∀ w, w ≠ m.window → u.window w = s.window w) ∧
      ∃ v g, (u.window m.window).life = some v ∧ v.grant n = some g ∧
        v.held = m.live.held + 1 ∧ g.held = m.grant.held + 1 ∧ v.executing = m.live.executing ∧
        g.executing = m.grant.executing)

/-- A request that nothing blocks begins execution in its arrival event: one record, one operation per extent of its
route at extent base × 2 MiB + window offset, the executing counts up by one, and nothing sent (R82, R84, R43, R10);
its tag records what the lookup found (R81). The route of an ACTIVE window is its home extent alone, and of a MIGRATING
window that of its slot's state (R84 step 1, R139). The OLD operation of a mirrored write is issued first (the model's
choice, log 10). -/
def Obligations.UnblockedRequestExecutes : Prop :=
  (∀ (s : State) (k : Kind) (n : NodeId) (t : Tag) (addr : BitVec 40) (len : BitVec 16) (data : List Byte)
      (m : MapEntry),
      s.resetHeld = false → carries k len data → s.link n = .admitted → s.tag n t = none →
      1 ≤ len.toNat → len.toNat ≤ 256 → addr.toNat % 4096 + len.toNat ≤ 4096 →
      s.entryAt n addr.toNat = some m → addr.toNat + len.toNat ≤ m.grant.base + m.live.bytes →
      (k = .read ∨ m.grant.rights = .readWrite) →
      (m.live.state = .active ∨ ∃ j, m.live.state = .migrating j ∧ (k = .read ∨ (s.slot j).mark = false ∨
        ∀ job, (s.slot j).job = some job → job.cursor ≠ (addr.toNat - m.grant.base) / 4096 * 4096)) →
      (∀ e ∈ s.hold n, e.window = m.window → e.chunk ≠ (addr.toNat - m.grant.base) / 4096) →
      ∃ u ops,
        exec (arrival k n t addr len data) s = .next u ∧
        u = { s with
          windows := u.windows
          tags := u.tags
          transactions := u.transactions
          nextTransaction := u.nextTransaction
          channels := u.channels } ∧
        ops = (s.route m.live k ((addr.toNat - m.grant.base) / 4096)).extents.map (fun x =>
          (⟨x.1, x.2.base * 2097152 + (addr.toNat - m.grant.base), len.toNat, .pending⟩ : TransactionOp)) ∧
        (∃ x, u.transactions = s.transactions ++ [x] ∧ x.id = s.nextTransaction ∧ x.node = n ∧ x.tag = some t ∧
          x.kind = k ∧ x.window = m.window ∧ x.chunk = (addr.toNat - m.grant.base) / 4096 ∧ x.ops = ops ∧
          x.authoritative = (s.route m.live k x.chunk).authoritative ∧ x.readData = none) ∧
        u.nextTransaction = s.nextTransaction + 1 ∧
        (∀ c, u.channel c = s.channel c ++ (ops.filter fun o => o.addr / 4096 % 4 == c.val).map fun o =>
          (⟨k, o.addr, len.toNat, data, .transaction s.nextTransaction o.role⟩ : PoolOp)) ∧
        (∃ x, u.tag n t = some x ∧ x.phase = .executing s.nextTransaction ∧ x.data = none ∧ x.window = m.window ∧
          x.rights = m.grant.rights ∧ x.offset = addr.toNat - m.grant.base) ∧
        (∀ a b, (a, b) ≠ (n, t) → u.tag a b = s.tag a b) ∧
        (∀ w, w ≠ m.window → u.window w = s.window w) ∧
        ∃ v g, (u.window m.window).life = some v ∧ v.grant n = some g ∧
          v.executing = m.live.executing + 1 ∧ g.executing = m.grant.executing + 1 ∧ v.held = m.live.held ∧
          g.held = m.grant.held) ∧
  (∀ (s : State) (v : Live) (k : Kind) (chunk : Nat),
    (v.state = .active → s.route v k chunk = ⟨[(.home, v.home)], .home⟩) ∧
    ∀ j, v.state = .migrating j → s.route v k chunk = (s.slot j).route v.home k chunk) ∧
  ∀ (job : Job) (home : Extent) (k : Kind) (chunk : Nat),
    (∀ mark, chunk * 4096 < job.cursor →
      (Slot.copying job mark).route home .read chunk = ⟨[(.target, job.target)], .target⟩ ∧
      (Slot.copying job mark).route home .write chunk = ⟨[(.old, job.source), (.target, job.target)], .old⟩) ∧
    (∀ mark, job.cursor ≤ chunk * 4096 →
      (Slot.copying job mark).route home k chunk = ⟨[(.old, job.source)], .old⟩) ∧
    (∀ r, (Slot.aborting job r).route home k chunk = ⟨[(.old, job.source)], .old⟩) ∧
    (Slot.drainingOld job).route home k chunk = ⟨[(.target, job.target)], .target⟩

/-- The end of a pool operation: its effect on the pool's bytes and marks, and the bytes an OK READ hands back (R22,
R25; what the stacked DRAM finds is an operand, log 9). -/
def Obligations.OperationEndActsOnPool : Prop :=
  ∀ (s : State) (c : ChannelId) (op : PoolOp) (rest : List PoolOp) (dramFault : Bool), ∃ r,
    s.endOp c op rest dramFault = r ∧ r.state.channel c = rest ∧
    (r.failed = true ↔ dramFault = true ∨
      (op.kind = .read ∧ ∃ a, op.addr ≤ a ∧ a < op.addr + op.len ∧ s.pool.marked a = true)) ∧
    (op.kind = .read → r.failed = false → r.state.pool = s.pool ∧
      r.bytes = (List.range' op.addr op.len).map fun a => s.pool.value s.powerCycle a) ∧
    (r.failed = true → ∀ a, r.state.pool.marked a = true ↔
      s.pool.marked a = true ∨ (op.addr ≤ a ∧ a < op.addr + op.len)) ∧
    (op.kind = .read → ∀ a, r.state.pool.value s.powerCycle a = s.pool.value s.powerCycle a) ∧
    (op.kind = .write → r.failed = false → op.data.length = op.len → ∀ a,
      (∀ b, op.data[a - op.addr]? = some b → op.addr ≤ a → r.state.pool.value s.powerCycle a = b ∧
        r.state.pool.marked a = false) ∧
      (a < op.addr ∨ op.addr + op.len ≤ a →
        r.state.pool.value s.powerCycle a = s.pool.value s.powerCycle a ∧
        r.state.pool.marked a = s.pool.marked a)) ∧
    (op.kind = .write → ∀ a, a < op.addr ∨ op.addr + op.len ≤ a →
      r.state.pool.value s.powerCycle a = s.pool.value s.powerCycle a)

/-- The operation at the head of a channel ends for the transaction that issued it, with its effect on the pool and on
the record; a mirror write that failed is told to the job first (log 11), which may abort it and replay held requests
(R140). With another operation still pending nothing is sent. With the last the record is discarded, a tag is answered
by the authoritative outcome, offered for capture when that is a fault, and freed; an orphan's end sends nothing and
captures nothing. The window's executing count falls, and QUIET is raised when it was awaited (R86, R87, R88, R90, R12,
R93, R140; what the stacked DRAM finds is an operand, log 9). -/
def Obligations.TransactionOperationEnds : Prop :=
  ∀ (s a : State) (c : ChannelId) (dramFault : Bool) (op : PoolOp) (rest : List PoolOp) (x u : Transaction)
    (role : Role) (r : OpEnd),
    s.TagsAgree → s.opOf c op rest x role → r = s.endOp c op rest dramFault →
    u = x.afterOp role r.failed r.bytes → s.noted x.id u role r a →
    a.pool = r.state.pool ∧ (∃ more, (a.port x.node).outbound = (s.port x.node).outbound ++ more) ∧
    ((∃ o ∈ u.ops, o.outcome = .pending) → exec (.transactionOperationEnd c dramFault) s = .next a) ∧
    ((∀ o ∈ u.ops, o.outcome ≠ .pending) → ∃ t,
      exec (.transactionOperationEnd c dramFault) s = .next t ∧ t.pool = r.state.pool ∧
      t.transactions = a.transactions.filter (fun y => y.id != x.id) ∧
      (x.tag = none → (∀ n, (t.port n).outbound = (a.port n).outbound) ∧ t.captures = a.captures) ∧
      (u.failed = true ↔ ∃ o ∈ u.ops, o.role = x.authoritative ∧ o.outcome = .uncorrectable) ∧
      (∀ tag, x.tag = some tag → t.tag x.node tag = none ∧
        (s.link x.node ≠ .down →
          (t.port x.node).outbound = (a.port x.node).outbound ++
            [.completion tag (if u.failed then .fault .poolError else .ok (u.readData.getD []))] ∧
          (∀ n, n ≠ x.node → t.port n = a.port n) ∧
          (u.failed = false → t.captures = a.captures) ∧
          (u.failed = true → a.capture x.node = none → ∀ y, s.tag x.node tag = some y →
            t.capture x.node = some ⟨tag, y.kind, y.addr, .poolError⟩ ∧
            t.isPending (.faultCaptured x.node) = true))) ∧
      ∀ v, (a.window x.window).life = some v →
        (v.state ≠ .retiring → t.windowExecuting x.window = v.executing - 1) ∧
        (v.quietPending = true → v.executing = 1 → t.isPending (.quiet x.window) = true))

/-- What the end of a transaction, tagged or orphan, hands on (R88). Its grant's executing count falls, and a DRAINING
grant whose count comes to 0 is removed with GRANT_REMOVED, which completes the retirement of a window it leaves empty
(R122, R126). A fence drain ends with NODE_FENCED (R70). A copy read that waited for the last WRITE of its chunk is
issued (R134). The drain of an old or target extent ends when no other transaction touches it (R142, R145). All this is
taken after a mirror write that failed has been told to the job (R140, log 11). -/
def Obligations.TransactionEndHandsOn : Prop :=
  ∀ (s a : State) (c : ChannelId) (dramFault : Bool) (op : PoolOp) (rest : List PoolOp) (x u : Transaction)
    (role : Role) (r : OpEnd) (v : Live) (g : GrantRecord),
    s.TagsAgree → s.opOf c op rest x role → r = s.endOp c op rest dramFault →
    u = x.afterOp role r.failed r.bytes → (∀ o ∈ u.ops, o.outcome ≠ .pending) → s.noted x.id u role r a →
    a.grant x.window x.node = some (v, g) → ∃ t,
    exec (.transactionOperationEnd c dramFault) s = .next t ∧
    (g.state ≠ .draining ∨ 1 < g.executing → ∃ b h, t.grant x.window x.node = some (b, h) ∧
      h = { g with executing := g.executing - 1 }) ∧
    (g.state = .draining → g.executing = 1 →
      t.grant x.window x.node = none ∧ t.isPending (.grantRemoved x.window) = true ∧
      (v.state = .retiring → (∀ h ∈ v.grants, h.node = x.node) →
        t.window x.window = { generation := (a.window x.window).generation + 1, life := none } ∧
        t.freeList = release v.home a.freeList ∧ t.isPending (.retireDone x.window) = true) ∧
      (v.state ≠ .retiring ∨ (∃ h ∈ v.grants, h.node ≠ x.node) → (t.window x.window).life.isSome)) ∧
    (a.link x.node = .fencing → a.nodeExecuting x.node = 1 →
      t.link x.node = .fenced ∧ t.isPending (.nodeFenced x.node) = true) ∧
    (a.link x.node ≠ .fencing ∨ a.nodeExecuting x.node ≠ 1 → t.link x.node = a.link x.node) ∧
    ((∀ j, v.state = .migrating j → a.engine.phase = .waiting j → (a.slot j).isCopying = false) →
      t.engine = a.engine ∧ t.channels = a.channels) ∧
    ∀ j, v.state = .migrating j →
      (∀ job mark, a.slot j = .copying job mark → t.slots = a.slots ∧ t.freeList = a.freeList ∧
        (a.engine.phase = .waiting j →
          ((∃ y ∈ a.transactions, y.id ≠ x.id ∧ y.kind = .write ∧ y.window = job.window ∧
              y.chunk * 4096 = job.cursor) →
            t.engine = a.engine ∧ t.channels = a.channels) ∧
          ((∀ y ∈ a.transactions, y.id ≠ x.id → y.kind = .write → y.window = job.window →
              y.chunk * 4096 ≠ job.cursor) →
            t.engine = { phase := .reading j, last := a.engine.last } ∧
            t.channels = (a.issue ⟨.read, job.source.base * 2097152 + job.cursor, 4096, [], .copy j⟩).channels))) ∧
      ∀ job spare outcome flag,
        (a.slot j = .drainingOld job ∧ spare = job.source ∧ outcome = .done ∧ flag = .jobDone j ∨
          ∃ reason, a.slot j = .aborting job reason ∧ a.engine.phase.copiesFor j = false ∧ spare = job.target ∧
            outcome = .aborted reason ∧ flag = .jobAborted j) →
        ((∃ y ∈ a.transactions, y.id ≠ x.id ∧ y.touches spare = true) →
          t.slots = a.slots ∧ t.freeList = a.freeList) ∧
        ((∀ y ∈ a.transactions, y.id ≠ x.id → y.touches spare = false) →
          t.slot j = .finished job outcome ∧ t.freeList = release spare a.freeList ∧ t.isPending flag = true ∧
          (job.window = x.window → ∃ b, (t.window x.window).life = some b ∧ b.state = .active))

/-- A valid fault capture record is frozen: only its release and device reset change it (R93). RELEASE FAULT CAPTURE
reports a node's record as it stood, clears it, and changes nothing else (R95; valid is coded as log 31 says). -/
def Obligations.FaultCaptureRelease : Prop :=
  (∀ (i : Instr) (s t : State) (n : NodeId) (x : Capture), exec i s = .next t → s.capture n = some x →
      t.capture n = some x ∨ (∃ cause, i = .deviceReset cause) ∨
        (i = .commandCompletion ∧ ∃ p, s.taken = some ⟨Cmd.releaseFaultCapture.code, p⟩ ∧ param p 0 = n.val)) ∧
  ∀ (s : State) (p : Vector Word 8), s.completing .releaseFaultCapture p →
    (3 < param p 0 → exec .commandCompletion s = .next (s.completed .badParam [])) ∧
    ∀ n : NodeId, param p 0 = n.val →
      (∀ x, s.capture n = some x → exec .commandCompletion s = .next
        ({ s with captures := Table.put s.captures n none }.completed .done
          ([1, slotOf x.tag.val, slotOf (kindCode x.kind)] ++ addressSlots x.addr ++ [slotOf x.reason.code]))) ∧
      (s.capture n = none → exec .commandCompletion s = .next (s.completed .done
        [0, absentSlot, absentSlot, absentSlot, absentSlot, absentSlot]))

/-- READ FAULT CAPTURE reports a node's record and changes none (R94; that valid is coded 1 for set is the model's
choice, log 31). -/
def Obligations.ReadFaultCaptureReports : Prop :=
  (∀ s : State, s.portFree →
    ∃ t, exec .readFaultCapture s = .next t ∧ t.busy = true ∧ t.completing .readFaultCapture s.params) ∧
  ∀ (s : State) (p : Vector Word 8), s.completing .readFaultCapture p →
    (3 < param p 0 → exec .commandCompletion s = .next (s.completed .badParam [])) ∧
    ∀ n : NodeId, param p 0 = n.val →
      (∀ x, s.capture n = some x → exec .commandCompletion s = .next (s.completed .done
        ([1, slotOf x.tag.val, slotOf (kindCode x.kind)] ++ addressSlots x.addr ++ [slotOf x.reason.code]))) ∧
      (s.capture n = none → exec .commandCompletion s = .next (s.completed .done
        [0, absentSlot, absentSlot, absentSlot, absentSlot, absentSlot]))

/-! ### Hold queues and suspension -/

/-- The entries that reach their expiry time leave with HOLD_EXPIRED in queue order: their tags are freed, the held
counts of their grants fall, and the first fault fills a clear capture record. A replay pass of the node's queue follows
in the same event, on the state the expiry leaves (R102, R100, R92, R93, R11; time stands at the expiry, log 5). -/
def Obligations.HoldExpiryFaultsEntries : Prop :=
  ∀ (s : State) (n : NodeId) (time : Nat) (gone : List HoldEntry), s.resetHeld = false → s.TagsAgree →
    s.HoldsBounded → (∃ e ∈ s.hold n, e.expiry = time) → (∀ x ∈ s.timers, time ≤ x) →
    gone = (s.hold n).filter (fun e => e.expiry == time) →
    ∃ (a t : State) (more : List Message),
      exec (.holdExpiry n) s = .next t ∧ t = (a.replay n).state ∧
      a = { s with
        now := max s.now time
        windows := a.windows
        ports := a.ports
        tags := a.tags
        holds := a.holds
        captures := a.captures
        attention := a.attention } ∧
      a.TagsAgree ∧ a.hold n = (s.hold n).filter (fun e => e.expiry != time) ∧ (∀ m, m ≠ n → a.hold m = s.hold m) ∧
      (∀ e ∈ gone, a.tag n e.tag = none) ∧
      (∀ m tag, m ≠ n ∨ (∀ e ∈ gone, e.tag ≠ tag) → a.tag m tag = s.tag m tag) ∧
      (∀ w v g, s.grant w n = some (v, g) → ∃ b, a.grant w n =
        some (b, { g with held := g.held - (gone.filter fun e => e.window == w).length })) ∧
      a.port n = { s.port n with
        outbound := (s.port n).outbound ++ gone.map (fun e => Message.completion e.tag (.fault .holdExpired)) } ∧
      (∀ m, m ≠ n → a.port m = s.port m ∧ a.capture m = s.capture m) ∧
      (∀ x, s.capture n = some x → a.capture n = some x) ∧
      (s.capture n = none → ∀ first later x, gone = first :: later → s.tag n first.tag = some x →
        a.capture n = some ⟨first.tag, x.kind, x.addr, .holdExpired⟩ ∧ a.isPending (.faultCaptured n) = true) ∧
      t.now = max s.now time ∧ (∀ e ∈ t.hold n, time < e.expiry) ∧ (∀ e ∈ gone, t.tag n e.tag = none) ∧
      (t.port n).outbound = (s.port n).outbound ++
        gone.map (fun e => Message.completion e.tag (.fault .holdExpired)) ++ more

/-- A replay pass takes the entries of a queue oldest first and deals with each by the records as the pass has left
them: it is faulted NO_WINDOW, RIGHTS or WINDOW_RETIRED, or held again in its place with the cause just found and its
expiry time, or its request begins execution by the route in force. The faults' completions go out in queue order
(R99, R91, R101). The requests are those whose last byte lies in the range found, as R81 says of every one. -/
def Obligations.ReplayPassEvaluates : Prop :=
  ∀ (s t : State) (n : NodeId), s.TagsAgree → s.link n = .admitted →
    (∀ e ∈ s.hold n, ∀ x m, s.tag n e.tag = some x → s.entryAt n x.addr = some m →
      x.addr + x.len ≤ m.grant.base + m.live.bytes) →
    t = (s.replay n).state →
    t = { s with
      windows := t.windows
      ports := t.ports
      tags := t.tags
      transactions := t.transactions
      nextTransaction := t.nextTransaction
      captures := t.captures
      holds := t.holds
      channels := t.channels
      attention := t.attention } ∧
    (t.port n).outbound = (s.port n).outbound ++ s.replayAnswers n ∧ (∀ a, a ≠ n → t.port a = s.port a) ∧
    ∀ (below : List HoldEntry) (e : HoldEntry) (above : List HoldEntry) (x : TagEntry),
      s.hold n = below ++ e :: above → s.tag n e.tag = some x →
      (∀ reason, s.replayFault n x = some reason →
        t.tag n e.tag = none ∧ ∀ h ∈ t.hold n, h.tag ≠ e.tag) ∧
      ∀ (m : MapEntry) (offset : Nat) (copied blocked : Prop),
        s.entryAt n x.addr = some m → s.replayFault n x = none → offset = x.addr - m.grant.base →
        (copied ↔ ∃ j job, m.live.state = .migrating j ∧ x.kind = .write ∧ s.slot j = .copying job true ∧
          job.cursor = offset / 4096 * 4096) →
        (blocked ↔ ∃ h ∈ t.hold n, h.window = m.window ∧ h.chunk = offset / 4096 ∧ ∃ b ∈ below, b.tag = h.tag) →
        (m.live.state = .suspended → { e with cause := .suspended } ∈ t.hold n) ∧
        (copied → { e with cause := .chunkBusy } ∈ t.hold n) ∧
        (m.live.state ≠ .suspended → ¬copied → blocked → { e with cause := .behind } ∈ t.hold n) ∧
        (m.live.state ≠ .suspended → ¬copied → ¬blocked →
          (∀ h ∈ t.hold n, h.tag ≠ e.tag) ∧
          ∃ y ∈ t.transactions, y.node = n ∧ y.tag = some e.tag ∧ y.kind = x.kind ∧ y.window = m.window ∧
            y.chunk = offset / 4096 ∧
            y.ops = (s.route m.live x.kind (offset / 4096)).extents.map (fun a =>
              (⟨a.1, a.2.base * 2097152 + offset, x.len, .pending⟩ : TransactionOp)) ∧
            (∃ z, t.tag n e.tag = some z ∧ z.phase = .executing y.id ∧ z.data = none) ∧
            ∀ o ∈ y.ops, ∀ c : ChannelId, c.val = o.addr / 4096 % 4 →
              ⟨x.kind, o.addr, x.len, x.data.getD [], .transaction y.id o.role⟩ ∈ t.channel c)

/-- SUSPEND makes an ACTIVE window SUSPENDED and sets quiet-pending, or raises QUIET when nothing executes (R108, R12;
that P2 reads 1 when QUIET was raised is the model's coding, log 31). RESUME makes it ACTIVE without QUIET and takes the
replay passes in node order; its results count them, and no entry of the window stays held (R110, R100). A pass takes
entries out of a queue and holds others again in their places with their expiry times, and adds none (R99). -/
def Obligations.SuspensionCompletes : Prop :=
  (∀ (s : State) (p : Vector Word 8) (w : WindowId) (v : Live),
      s.completing .suspend p → s.names p w v → v.state = .active →
      (0 < v.executing → exec .commandCompletion s = .next
        ((s.withLife w { v with state := .suspended, quietPending := true }).completed .done
          [slotOf v.executing, slotOf v.held, 0])) ∧
      (v.executing = 0 → exec .commandCompletion s = .next
        (((s.withLife w { v with state := .suspended, quietPending := false }).flagged (windowSource w) 0b000001).completed
          .done [0, slotOf v.held, 1]))) ∧
  (∀ (s a : State) (p : Vector Word 8) (w : WindowId) (v : Live),
      s.completing .resume p → s.names p w v → v.state = .suspended →
      a = s.withLife w { v with state := .active, quietPending := false } →
      exec .commandCompletion s = .next
        ((a.replayWindow w).state.completed .done
          [slotOf v.held, slotOf ((a.replayWindow w).executed.count w), slotOf ((a.replayWindow w).faulted.count w),
            slotOf ((a.replayWindow w).state.windowExecuting w)]) ∧
      ((∀ n, ∀ e ∈ s.hold n, e.window ≠ w) → (a.replayWindow w).state = a) ∧
      (s.TagsAgree → s.MapsOrdered → s.CountsAgree →
        (∀ n, ∀ e ∈ (a.replayWindow w).state.hold n, e.window ≠ w) ∧
        (a.replayWindow w).executed.count w + (a.replayWindow w).faulted.count w = v.held)) ∧
  ∀ (s : State) (n : NodeId),
    (((s.replay n).state.hold n).map fun e => (e.tag, e.window, e.chunk, e.expiry)).Sublist
      ((s.hold n).map fun e => (e.tag, e.window, e.chunk, e.expiry)) ∧
    ∀ m, m ≠ n → (s.replay n).state.hold m = s.hold m

/-! ### Revocation and retirement -/

/-- An unlisting takes the grant out of its node's map, faults the entries held under it in queue order, and leaves
the grant DRAINING, or removes it with GRANT_REMOVED when nothing executes under it (R116, R122, R106). -/
def Obligations.UnlistingWithdrawsGrant : Prop :=
  ∀ (s : State) (w : WindowId) (n : NodeId) (v : Live) (g : GrantRecord), s.TagsAgree → s.HoldsBounded →
    (s.window w).life = some v → v.grant n = some g →
    (s.unlist w n).map n = (s.map n).filter (fun x => x != w) ∧
    (s.unlist w n).hold n = (s.hold n).filter (fun e => e.window != w) ∧
    ((s.unlist w n).port n).outbound = (s.port n).outbound ++
      ((s.hold n).filter fun e => e.window == w).map (fun e => Message.completion e.tag (.fault .revoked)) ∧
    (∀ m, m ≠ n → (s.unlist w n).map m = s.map m ∧ (s.unlist w n).hold m = s.hold m ∧
      (s.unlist w n).port m = s.port m) ∧
    (∀ x, x ≠ w → (s.unlist w n).window x = s.window x) ∧
    (0 < g.executing → ∃ u h, ((s.unlist w n).window w).life = some u ∧ u.grant n = some h ∧ h.state = .draining ∧
      h.executing = g.executing ∧ h.rights = g.rights ∧ u.state = v.state) ∧
    (g.executing = 0 → (s.unlist w n).isPending (.grantRemoved w) = true ∧
      (s.unlist w n).grant w n = none ∧
      (v.state = .retiring → (∀ x ∈ v.grants, x.node = n) →
        (s.unlist w n).window w = { generation := (s.window w).generation + 1, life := none } ∧
        (s.unlist w n).freeList = release v.home s.freeList ∧
        (s.unlist w n).isPending (.retireDone w) = true)) ∧
    (s.unlist w n).transactions = s.transactions ∧ (s.unlist w n).channels = s.channels

/-- REVOKE withdraws a LISTED grant by a numbered notice with a deadline when its node is ADMITTED or FENCING, unlists
it at once otherwise, and refuses what R113 refuses. A notice takes the counter's value or the first value after it,
modulo 256, that no REVOKING grant of the node holds, and its deadline lies the revoke limit in milliseconds ahead, or
is absent when the limit is 0 (R113, R114, R115, R112, R72, R50; result slots by log 15). -/
def Obligations.RevokeCompletes : Prop :=
  (∀ (s : State) (p : Vector Word 8) (w : WindowId) (v : Live),
      s.completing .revoke p → s.names p w v → v.state ≠ .retiring →
      (3 < param p 2 → exec .commandCompletion s = .next (s.completed .badParam [])) ∧
      ∀ n : NodeId, param p 2 = n.val →
        (v.grant n = none → exec .commandCompletion s = .next (s.completed .noGrant [])) ∧
        ∀ g, v.grant n = some g →
          (g.state = .draining → exec .commandCompletion s = .next (s.completed .inProgress [slotOf 3])) ∧
          (∀ number limit, g.state = .revoking number limit → ∃ left,
            exec .commandCompletion s = .next
              (s.completed .inProgress [slotOf 2, slotOf number.toNat, left]) ∧
            (limit = none → left = 0) ∧
            ∀ time, limit = some time → s.now < time → left = slotOf ((time - s.now + 999) / 1000)) ∧
          (g.state = .listed → s.link n = .admitted ∨ s.link n = .fencing →
            exec .commandCompletion s = .next
              (((s.withPort n
                { s.port n with
                  counter := s.noticeNumber n + 1
                  outbound := (s.port n).outbound ++ [.revokeNotice (s.noticeNumber n) g.base v.home.len] }).withLife w
                (v.updateGrant n fun x => { x with state := .revoking (s.noticeNumber n) s.newDeadline })).completed .done
                [slotOf 2, slotOf (s.noticeNumber n).toNat, slotOf s.settings.revokeLimit.toNat, slotOf g.executing,
                  slotOf g.held])) ∧
          (g.state = .listed → s.link n ≠ .admitted → s.link n ≠ .fencing → ∃ code,
            exec .commandCompletion s = .next
              ((s.unlist w n).completed .done [slotOf code, absentSlot, slotOf g.executing]) ∧
            (g.executing = 0 → code = 4) ∧ (0 < g.executing → code = 3))) ∧
  (∀ s : State,
    (s.settings.revokeLimit = 0 → s.newDeadline = none) ∧
    (s.settings.revokeLimit ≠ 0 → s.newDeadline = some (s.now + s.settings.revokeLimit.toNat * 1000))) ∧
  ∀ (s : State) (n : NodeId), ∃ k < 256,
    s.noticeNumber n = (s.port n).counter + BitVec.ofNat 8 k ∧
    (∀ w, s.noticeOf n w ≠ some (s.noticeNumber n)) ∧
    ∀ i < k, ∃ w, s.noticeOf n w = some ((s.port n).counter + BitVec.ofNat 8 i)

/-- An acknowledgement unlists the REVOKING grant that holds its number, in whatever link state but DOWN, and raises
PROTOCOL when none holds it (R117). A deadline reached unlists its grant, raises REVOKE_FORCED, and with the policy set
fences an ADMITTED node, after the REVOKED completions; a grant without a deadline is never forced (R118, R119, R71;
time stands at the deadline, log 5). -/
def Obligations.PendingRevocationEnds : Prop :=
  (∀ (s : State) (n : NodeId) (number : Byte), s.resetHeld = false → s.link n ≠ .down →
    (∀ w, s.NoticesDistinct → s.noticeOf n w = some number →
      exec (.revokeAck n number) s = .next (s.unlist w n)) ∧
    ((∀ w, s.noticeOf n w ≠ some number) →
      exec (.revokeAck n number) s = .next (s.flagged (nodeSource n) 0b010000))) ∧
  ∀ (s a : State) (w : WindowId) (n : NodeId), s.resetHeld = false →
    (s.deadlineOf w n = none → exec (.revokeDeadline w n) s = .next s) ∧
    ∀ time, s.deadlineOf w n = some time → (∀ x ∈ s.timers, time ≤ x) →
      a = ({ s with now := max s.now time }.unlist w n).flagged (windowSource w) 0b000100 →
      (s.settings.fenceOnRevokeTimeout = false ∨ s.link n ≠ .admitted →
        exec (.revokeDeadline w n) s = .next a) ∧
      (s.settings.fenceOnRevokeTimeout = true → s.link n = .admitted →
        exec (.revokeDeadline w n) s = .next (a.enterFencing n))

/-- RETIRE makes the window RETIRING, faults its held entries WINDOW_RETIRED without capture, then withdraws each LISTED
grant by a notice or by the shortcut and leaves the others as they were, and completes at once when no grant remains:
the window is then FREE under the next generation. Each node is sent its completions in queue order and then its notice.
The results are those of R127 (R125, R126, R127, R171; that a field an outcome lacks is one reported absent is the
model's reading, log 16, and the coding of P0 its choice, log 31). -/
def Obligations.RetireCompletes : Prop :=
  ∀ (s : State) (p : Vector Word 8) (w : WindowId) (v : Live),
    s.completing .retire p → s.names p w v → v.state = .active ∨ v.state = .suspended →
    (∃ (t : State) (outcome : NodeId → Word) (notices : NodeId → List Message),
      exec .commandCompletion s = .next (t.completed .done
        ([if (t.window w).life = none then 1 else 0, slotOf (t.window w).generation.toNat,
          slotOf (allNodes.map fun n => (s.heldUnder w n).length).sum, slotOf (t.windowExecuting w)] ++
          [outcome 0, outcome 1, outcome 2, outcome 3])) ∧
      (∀ n, t.hold n = (s.hold n).filter fun e => e.window != w) ∧
      (s.TagsAgree → s.HoldsBounded →
        (∀ n, (t.port n).outbound = (s.port n).outbound ++
            (s.heldUnder w n).map (fun e => Message.completion e.tag (.fault .windowRetired)) ++ notices n ∧
          ∀ e ∈ s.heldUnder w n, t.tag n e.tag = none) ∧
        t.captures = s.captures) ∧
      (∀ n, v.grant n = none → t.grant w n = none ∧ notices n = [] ∧ outcome n = 0xFFFFFF00#32) ∧
      (∀ n g, v.grant n = some g →
        (g.state = .listed → s.link n = .admitted ∨ s.link n = .fencing →
          notices n = [.revokeNotice (s.noticeNumber n) g.base v.home.len] ∧
          outcome n = slotOf (1 + 256 * (s.noticeNumber n).toNat + 65536 * 65535) ∧ t.map n = s.map n ∧
          ∃ u h, t.grant w n = some (u, h) ∧ h.state = .revoking (s.noticeNumber n) s.newDeadline) ∧
        (g.state = .listed → s.link n ≠ .admitted → s.link n ≠ .fencing →
          notices n = [] ∧ t.map n = (s.map n).filter (fun x => x != w) ∧
          (g.executing = 0 → t.grant w n = none ∧ outcome n = 0xFFFFFF04#32 ∧ t.isPending (.grantRemoved w) = true) ∧
          (0 < g.executing → outcome n = slotOf (3 + 256 * 255 + 65536 * min g.executing 65535) ∧
            ∃ u h, t.grant w n = some (u, h) ∧ h.state = .draining ∧ h.executing = g.executing)) ∧
        (∀ number limit, g.state = .revoking number limit →
          notices n = [] ∧ outcome n = slotOf (2 + 256 * number.toNat + 65536 * 65535) ∧
          ∃ u h, t.grant w n = some (u, h) ∧ h.state = g.state) ∧
        (g.state = .draining →
          notices n = [] ∧ outcome n = slotOf (3 + 256 * 255 + 65536 * min g.executing 65535) ∧
          ∃ u h, t.grant w n = some (u, h) ∧ h.state = .draining ∧ h.executing = g.executing)) ∧
      ((t.window w = { generation := (s.window w).generation + 1, life := none } ∧
          t.isPending (.retireDone w) = true ∧ t.freeList = release v.home s.freeList) ∨
        ∃ u, t.window w = { generation := (s.window w).generation, life := some u } ∧ u.state = .retiring ∧
          u.quietPending = false ∧ u.home = v.home ∧ u.executing = v.executing ∧ u.grants ≠ [] ∧
          t.freeList = s.freeList)) ∧
    (v.grants = [] → (∀ n, ∀ e ∈ s.hold n, e.window ≠ w) →
      exec .commandCompletion s = .next
        ({ s with
            freeList := release v.home s.freeList
            windows := Table.put s.windows w { generation := (s.window w).generation + 1, life := none } }.flagged
          (windowSource w) 0b001000 |>.completed .done
          [1, slotOf ((s.window w).generation + 1).toNat, 0, 0, 0xFFFFFF00#32, 0xFFFFFF00#32, 0xFFFFFF00#32,
            0xFFFFFF00#32]))

/-! ### Live migration -/

/-- MIGRATE takes the lowest IDLE slot into COPYING with the extent allocated and makes the window MIGRATING; an IDLE
engine begins a turn, marking the first chunk. Otherwise it refuses by the first check of R147 that fails, and changes
no record (R147, R133). -/
def Obligations.MigrateCompletes : Prop :=
  (∀ (s a : State) (p : Vector Word 8) (w : WindowId) (v : Live) (j : SlotId) (x : Extent) (free : List Extent)
      (job : Job),
      s.completing .migrate p → s.names p w v → v.state = .active →
      s.slot j = .idle → (∀ i < j, s.slot i ≠ .idle) →
      (param p 2 = 0 ∧ firstFit v.home.len s.freeList = some (x, free) ∨
        param p 2 = 1 ∧ param p 3 + v.home.len ≤ s.granules ∧ x = ⟨param p 3, v.home.len⟩ ∧
          allocateExplicit x s.freeList = some free) →
      job = ⟨w, (s.window w).generation, v.home, x, 0⟩ →
      a = ({ s with freeList := free, slots := Table.put s.slots j (.copying job false) }).withLife w
        { v with state := .migrating j } →
      (s.engine.phase ≠ .idle → exec .commandCompletion s = .next
        (a.completed .done [slotOf j.val, slotOf x.base, slotOf x.len, slotOf (s.window w).generation.toNat])) ∧
      (s.engine.phase = .idle → (∀ i, (s.slot i).isCopying = false) →
        ((∃ y ∈ s.transactions, y.kind = .write ∧ y.window = w ∧ y.chunk = 0) →
          exec .commandCompletion s = .next
            ({ a with
                slots := Table.put s.slots j (.copying job true)
                engine := { phase := .waiting j, last := j } }.completed .done
              [slotOf j.val, slotOf x.base, slotOf x.len, slotOf (s.window w).generation.toNat])) ∧
        ((∀ y ∈ s.transactions, y.kind = .write → y.window = w → y.chunk ≠ 0) →
          exec .commandCompletion s = .next
            (({ a with
                slots := Table.put s.slots j (.copying job true)
                engine := { phase := .reading j, last := j } }.issue
              ⟨.read, v.home.base * 2097152, 4096, [], .copy j⟩).completed .done
              [slotOf j.val, slotOf x.base, slotOf x.len, slotOf (s.window w).generation.toNat])))) ∧
  ∀ (s : State) (p : Vector Word 8) (w : WindowId) (v : Live),
    s.completing .migrate p → s.names p w v → v.state = .active →
    (1 < param p 2 ∨ (param p 2 = 1 ∧ s.granules < param p 3 + v.home.len) →
      exec .commandCompletion s = .next (s.completed .badParam [])) ∧
    (param p 2 ≤ 1 → (param p 2 = 1 → param p 3 + v.home.len ≤ s.granules) →
      ((∀ j, s.slot j ≠ .idle) → exec .commandCompletion s = .next
        (s.completed .noJobSlot [slotOf (s.slot 0).code, slotOf (s.slot 1).code, slotOf (s.slot 2).code,
          slotOf (s.slot 3).code])) ∧
      ((∃ j, s.slot j = .idle) → param p 2 = 0 → firstFit v.home.len s.freeList = none →
        exec .commandCompletion s = .next (s.completed .noSpace [slotOf (largestFree s.freeList)])) ∧
      ((∃ j, s.slot j = .idle) → param p 2 = 1 → allocateExplicit ⟨param p 3, v.home.len⟩ s.freeList = none →
        exec .commandCompletion s = .next (s.completed .overlap [])))

/-- The engine's turn goes to the first COPYING slot after the last slot served, whose chunk is marked, and reads it
at once unless a WRITE of the chunk executes; with no slot COPYING the engine stays IDLE. At the end of a turn the
engine reads the pacing setting: 0 makes it IDLE and begins a new turn in the same event, and above 0 it paces until
that time has passed. The pacing end makes the engine IDLE, and a turn begins in the same event if a slot is COPYING
(R133, R135, R138; time stands at the pacing end, log 5). -/
def Obligations.TurnServesNextSlot : Prop :=
  (∀ (s : State) (j : SlotId) (job : Job) (mark : Bool) (k : Nat), k < 4 → j = s.engine.last + Fin.ofNat 4 (k + 1) →
      s.slot j = .copying job mark →
      (∀ i < k, (s.slot (s.engine.last + Fin.ofNat 4 (i + 1))).isCopying = false) →
      ((∃ x ∈ s.transactions, x.kind = .write ∧ x.window = job.window ∧ x.chunk * 4096 = job.cursor) →
        s.startTurn = { s with
          slots := Table.put s.slots j (.copying job true)
          engine := { phase := .waiting j, last := j } }) ∧
      ((∀ x ∈ s.transactions, x.kind = .write → x.window = job.window → x.chunk * 4096 ≠ job.cursor) →
        s.startTurn = { s with
          slots := Table.put s.slots j (.copying job true)
          engine := { phase := .reading j, last := j } }.issue
            ⟨.read, job.source.base * 2097152 + job.cursor, 4096, [], .copy j⟩)) ∧
  (∀ s : State, (∀ j, (s.slot j).isCopying = false) → s.startTurn = s) ∧
  (∀ s : State,
    (s.settings.copyPacing = 0 → s.endTurn = { s with engine := { phase := .idle, last := s.engine.last } }.startTurn) ∧
    (s.settings.copyPacing ≠ 0 → s.endTurn =
      { s with engine := { phase := .pacing (s.now + s.settings.copyPacing.toNat), last := s.engine.last } })) ∧
  ∀ (s : State) (time : Nat), s.resetHeld = false → s.engine.phase = .pacing time → (∀ x ∈ s.timers, time ≤ x) →
    exec .pacingEnd s = .next
      ({ s with now := max s.now time, engine := { phase := .idle, last := s.engine.last } }.startTurn) ∧
    ((∀ j, (s.slot j).isCopying = false) →
      exec .pacingEnd s = .next
        { s with now := max s.now time, engine := { phase := .idle, last := s.engine.last } })

/-- A copy read that ends OK for a COPYING slot issues the copy write of its bytes. A copy write that ends OK advances
the cursor by one chunk and clears the mark, and at the window's end takes the switch; the entries held for the window
are then replayed, and the turn ends: the engine paces, or with a pacing of 0 begins a new turn, which may mark the
slot's next chunk. An operation that fails puts the slot into ABORTING with its reason, or through it to FINISHED, by
the entry of R144, and ends the turn. One that ends for a slot in ABORTING has no effect on the job but the end of its
turn and of its drain. Each has its effect on the pool (R135, R137, R138, R141, R142, R144, R145; what the stacked
DRAM finds is an operand, log 9). -/
def Obligations.CopyOperationsEnd : Prop :=
  (∀ (s : State) (c : ChannelId) (op : PoolOp) (rest : List PoolOp) (j : SlotId) (job : Job) (mark dramFault : Bool)
      (r : OpEnd),
      s.resetHeld = false → s.engine.phase = .reading j → s.channel c = op :: rest → op.issuer = .copy j →
      (∀ i < c, ∀ x ∈ (s.channel i).head?, x.issuer ≠ .copy j) →
      r = s.endOp c op rest dramFault → s.slot j = .copying job mark →
      (r.failed = false → exec (.copyReadEnd dramFault) s = .next
        ({ r.state with engine := { phase := .writing j r.bytes, last := s.engine.last } }.issue
          ⟨.write, job.target.base * 2097152 + job.cursor, 4096, r.bytes, .copy j⟩)) ∧
      (r.failed = true → ∃ t p : State, exec (.copyReadEnd dramFault) s = .next t ∧ t = p.endTurn ∧
        p = ({ r.state with engine := { phase := .idle, last := s.engine.last } } : State).enterAborting j
          .copyReadError ∧
        p.engine = { phase := .idle, last := s.engine.last } ∧ p.settings = s.settings ∧ p.now = s.now ∧
        t.pool = r.state.pool ∧
        (t.slot j = .aborting job .copyReadError ∨
          t.slot j = .finished job (.aborted .copyReadError) ∧ t.isPending (.jobAborted j) = true))) ∧
  (∀ (s : State) (c : ChannelId) (op : PoolOp) (rest : List PoolOp) (j : SlotId) (job : Job) (mark dramFault : Bool)
      (v : Live) (data : List Byte) (r : OpEnd),
      s.resetHeld = false → s.engine.phase = .writing j data → s.channel c = op :: rest → op.issuer = .copy j →
      (∀ i < c, ∀ x ∈ (s.channel i).head?, x.issuer ≠ .copy j) →
      r = s.endOp c op rest dramFault → s.slot j = .copying job mark →
      (s.window job.window).life = some v → v.state = .migrating j →
      (r.failed = false → job.cursor + 4096 ≠ job.source.len * 2097152 → ∃ (t p : State) (m : Bool),
        exec (.copyWriteEnd dramFault) s = .next t ∧ t = p.endTurn ∧
        p = (({ r.state with
          slots := Table.put s.slots j (.copying { job with cursor := job.cursor + 4096 } false)
          engine := { phase := .idle, last := s.engine.last } } : State).replayWindow job.window).state ∧
        p.slots = Table.put s.slots j (.copying { job with cursor := job.cursor + 4096 } false) ∧
        p.engine = { phase := .idle, last := s.engine.last } ∧ p.settings = s.settings ∧ p.now = s.now ∧
        t.pool = r.state.pool ∧
        (s.settings.copyPacing ≠ 0 → m = false ∧
          t.engine = { phase := .pacing (s.now + s.settings.copyPacing.toNat), last := s.engine.last }) ∧
        (s.settings.copyPacing = 0 →
          (m = true ↔ t.engine.last = j) ∧
          (m = true → t.engine.phase = .waiting j ∨ t.engine.phase = .reading j) ∧
          ((∀ i, i ≠ j → (s.slot i).isCopying = false) → m = true)) ∧
        t.slot j = .copying { job with cursor := job.cursor + 4096 } m ∧
        (∃ u, (t.window job.window).life = some u ∧ u.home = v.home ∧ u.state = .migrating j) ∧
        t.freeList = s.freeList) ∧
      (r.failed = false → job.cursor + 4096 = job.source.len * 2097152 → ∃ (t p : State) (u : Live),
        exec (.copyWriteEnd dramFault) s = .next t ∧ t = p.endTurn ∧
        p = ((((({ r.state with
          slots := Table.put s.slots j (.drainingOld { job with cursor := job.cursor + 4096 })
          engine := { phase := .idle, last := s.engine.last } } : State).withLife job.window
            { v with home := job.target }).lookDrain j).replayWindow job.window).state) ∧
        p.engine = { phase := .idle, last := s.engine.last } ∧ p.settings = s.settings ∧ p.now = s.now ∧
        t.pool = r.state.pool ∧ (t.window job.window).life = some u ∧ u.home = job.target ∧
        (s.touching job.source ≠ 0 → t.freeList = s.freeList ∧ u.state = .migrating j ∧
          t.slot j = .drainingOld { job with cursor := job.cursor + 4096 }) ∧
        (s.touching job.source = 0 → t.freeList = release job.source s.freeList ∧ u.state = .active ∧
          t.slot j = .finished { job with cursor := job.cursor + 4096 } .done ∧ t.isPending (.jobDone j) = true)) ∧
      (r.failed = true → ∃ t p : State, exec (.copyWriteEnd dramFault) s = .next t ∧ t = p.endTurn ∧
        p = ({ r.state with engine := { phase := .idle, last := s.engine.last } } : State).enterAborting j
          .copyWriteError ∧
        p.engine = { phase := .idle, last := s.engine.last } ∧ p.settings = s.settings ∧ p.now = s.now ∧
        t.pool = r.state.pool ∧
        (t.slot j = .aborting job .copyWriteError ∨
          t.slot j = .finished job (.aborted .copyWriteError) ∧ t.isPending (.jobAborted j) = true))) ∧
  (∀ (s : State) (c : ChannelId) (op : PoolOp) (rest : List PoolOp) (j : SlotId) (job : Job) (reason : AbortReason)
    (dramFault : Bool) (r : OpEnd),
    s.resetHeld = false → s.channel c = op :: rest → op.issuer = .copy j →
    (∀ i < c, ∀ x ∈ (s.channel i).head?, x.issuer ≠ .copy j) →
    r = s.endOp c op rest dramFault → s.slot j = .aborting job reason →
    r.state.endTurn.pool = r.state.pool ∧
    (s.engine.phase = .reading j → exec (.copyReadEnd dramFault) s = .next (r.state.endTurn.lookDrain j)) ∧
    ∀ data, s.engine.phase = .writing j data →
      exec (.copyWriteEnd dramFault) s = .next (r.state.endTurn.lookDrain j)) ∧
  ∀ (s : State) (j : SlotId) (job : Job) (v : Live),
    s.slot j = .drainingOld job → (s.window job.window).life = some v → v.state = .migrating j →
    (s.touching job.source ≠ 0 → s.lookDrain j = s) ∧
    (s.touching job.source = 0 → s.lookDrain j = (({ s with
        freeList := release job.source s.freeList
        slots := Table.put s.slots j (.finished job .done) }).withLife job.window
          { v with state := .active }).flagged (jobSource j) 0b000001)

/-- ABORT JOB puts a COPYING slot into ABORTING, and refuses every other state (R143; result slots by logs 25 and 31).
So does a mirrored write whose TARGET operation ends UNCORRECTABLE (R140; log 11), and outside COPYING it has no
effect on the job. At the entry to ABORTING a WAITING turn of the slot ends at once without pacing, and a new turn may
begin; the entries held for the window are replayed if the mark was set; then the drain is looked at (R144). A slot in
ABORTING gives up its target and becomes FINISHED when no transaction touches the target and no copy operation of it
is in progress, and not before (R144, R145). -/
def Obligations.JobsAbort : Prop :=
  (∀ (s : State) (p : Vector Word 8), s.completing .abortJob p →
      (3 < param p 0 → exec .commandCompletion s = .next (s.completed .badParam [])) ∧
      ∀ j : SlotId, param p 0 = j.val →
        (s.slot j = .idle → exec .commandCompletion s = .next (s.completed .wrongState [0])) ∧
        (∀ job, s.slot j = .drainingOld job → exec .commandCompletion s = .next (s.completed .wrongState [3])) ∧
        (∀ job outcome, s.slot j = .finished job outcome →
          exec .commandCompletion s = .next (s.completed .wrongState [4, slotOf outcome.code])) ∧
        (∀ job reason, s.slot j = .aborting job reason →
          exec .commandCompletion s = .next (s.completed .inProgress [2, slotOf reason.code])) ∧
        ∀ job mark, s.slot j = .copying job mark → ∃ (t : State) (ended : Bool),
          exec .commandCompletion s = .next (t.completed .done
            [slotOf job.window.val, slotOf job.generation.toNat, slotOf (job.cursor / 4096), flagSlot ended]) ∧
          t = s.enterAborting j .byCommand ∧
          (ended = false → t.slot j = .aborting job .byCommand) ∧
          (ended = true → t.slot j = .finished job (.aborted .byCommand) ∧ t.isPending (.jobAborted j) = true)) ∧
  (∀ (s : State) (c : ChannelId) (op : PoolOp) (rest : List PoolOp) (x : Transaction) (v : Live) (j : SlotId)
      (job : Job) (mark : Bool),
      s.resetHeld = false → s.TagsAgree → s.channel c = op :: rest → op.issuer = .transaction x.id .target →
      x ∈ s.transactions → x.mirrored = true → (s.window x.window).life = some v → v.state = .migrating j →
      s.slot j = .copying job mark → ∃ t,
        exec (.transactionOperationEnd c true) s = .next t ∧
        (t.slot j = .aborting job .mirrorWriteError ∨
          t.slot j = .finished job (.aborted .mirrorWriteError) ∧ t.isPending (.jobAborted j) = true)) ∧
  (∀ (s : State) (w : WindowId) (v : Live), (s.window w).life = some v →
      (∀ j, v.state = .migrating j → s.mirrorFailed w = s.enterAborting j .mirrorWriteError) ∧
      ((∀ j, v.state ≠ .migrating j) → s.mirrorFailed w = s)) ∧
  (∀ (s : State) (j : SlotId) (reason : AbortReason),
      ((s.slot j).isCopying = false → s.enterAborting j reason = s) ∧
      ∀ job mark, s.slot j = .copying job mark → ∃ turned replayed : State,
        (s.engine.phase ≠ .waiting j →
          turned = { s with slots := Table.put s.slots j (.aborting job reason) }) ∧
        (s.engine.phase = .waiting j →
          turned = ({ s with
            slots := Table.put s.slots j (.aborting job reason)
            engine := { phase := .idle, last := s.engine.last } } : State).startTurn) ∧
        (mark = true → replayed = (turned.replayWindow job.window).state) ∧ (mark = false → replayed = turned) ∧
        replayed.slot j = .aborting job reason ∧ replayed.engine = turned.engine ∧
        s.enterAborting j reason = replayed.lookDrain j ∧
        ((s.enterAborting j reason).slot j = .finished job (.aborted reason) ↔
          replayed.touching job.target = 0 ∧ replayed.engine.phase.copiesFor j = false) ∧
        ((s.enterAborting j reason).slot j = .aborting job reason ↔
          replayed.touching job.target ≠ 0 ∨ replayed.engine.phase.copiesFor j = true)) ∧
  ∀ (s : State) (j : SlotId) (job : Job) (reason : AbortReason) (v : Live),
    s.slot j = .aborting job reason → (s.window job.window).life = some v → v.state = .migrating j →
    (s.touching job.target ≠ 0 ∨ s.engine.phase.copiesFor j = true → s.lookDrain j = s) ∧
    (s.touching job.target = 0 → s.engine.phase.copiesFor j = false →
      s.lookDrain j = (({ s with
        freeList := release job.target s.freeList
        slots := Table.put s.slots j (.finished job (.aborted reason)) }).withLife job.window
          { v with state := .active }).flagged (jobSource j) 0b000010)

/-- QUERY JOB reports the slot, the engine's phase for it and the spare touch count, and changes nothing (R148; that
the bits of P0 and P1 without content read 0, and that bit 24 of P0 is 1 for a set mark, is the model's choice, logs 30
and 31). -/
def Obligations.QueryJobReports : Prop :=
  ∀ (s : State) (p : Vector Word 8), s.completing .queryJob p →
    (3 < param p 0 → exec .commandCompletion s = .next (s.completed .badParam [])) ∧
    ∀ j : SlotId, param p 0 = j.val → ∃ head touch,
      head = slotOf ((s.slot j).code + 256 * s.engine.phase.codeFor j + 65536 * (s.slot j).reasonCode.getD 255 +
        (if (s.slot j).mark then 16777216 else 0)) ∧
      touch = (((s.slot j).spare.map fun e => slotOf (s.transactions.filter fun x => x.touches e).length).getD
        absentSlot) ∧
      (∀ job, (s.slot j).job = some job → exec .commandCompletion s = .next (s.completed .done
        [head, slotOf (job.window.val + 256 * job.generation.toNat), slotOf job.source.base, slotOf job.source.len,
          slotOf job.target.base, slotOf job.target.len, slotOf (job.cursor / 4096), touch])) ∧
      ((s.slot j).job = none → exec .commandCompletion s = .next (s.completed .done
        [head, 0x0000FFFF#32, absentSlot, absentSlot, absentSlot, absentSlot, absentSlot, touch]))

/-! ### Start-up -/

/-- The installation is taken once, while BOOTING is set; it clears BOOTING, decides every WAITING port and raises its
flag, and after a disabled or failed load touches no window, grant, extent or setting. A valid image's windows become
windows 0 to n - 1, ACTIVE with generation kept, on the image's extents, with LISTED grants in node order; every later
window stays FREE (R169, R64, R2, R37; the bytes the EEPROM delivers are an operand, log 19). -/
def Obligations.BootInstallCompletes : Prop :=
  (∀ (s : State) (eeprom : List Byte), s.resetHeld = false →
      (s.booting = false → exec (.bootInstall eeprom) s = .next s) ∧
      (s.booting = true → ∃ t, exec (.bootInstall eeprom) s = .next t ∧ t.booting = false ∧
        t.cmdDone = s.cmdDone ∧ t.err = s.err ∧ t.errorCode = s.errorCode ∧ t.params = s.params ∧
        (∀ status, bootLoad s.bootEnable s.granules eeprom = .error status →
          t.bootStatus = status ∧ t.maskInForce = 0 ∧
          t.isPending (if status.code = .notEnabled then .bootDone else .bootFailed) = true ∧
          t.windows = s.windows ∧ t.maps = s.maps ∧ t.freeList = s.freeList ∧ t.settings = s.settings) ∧
        (∀ m, bootLoad s.bootEnable s.granules eeprom = .ok m →
          t.bootStatus = ⟨.loaded, none⟩ ∧ t.maskInForce = BitVec.ofNat 4 m.mask ∧ t.isPending .bootDone = true ∧
          t.settings = { s.settings with
            holdLimit := BitVec.ofNat 16 m.holdLimit
            revokeLimit := BitVec.ofNat 16 m.revokeLimit
            copyPacing := BitVec.ofNat 8 m.copyPacing
            fenceOnRevokeTimeout := m.policy == 1 }) ∧
        ∀ n, t.port n =
          if (s.port n).standing = .waiting then
            if s.link n = .fenced ∧ t.maskInForce.getLsbD n.val = true then
              { s.port n with
                standing := .closed
                link := .admitted
                outbound := (s.port n).outbound ++ [.admitNotice] }
            else { s.port n with standing := .closed }
          else s.port n)) ∧
  ∀ (s : State) (eeprom : List Byte) (m : BootImage), s.resetHeld = false → s.Owned → s.booting = true →
    s.freeList = [⟨0, s.granules⟩] → bootLoad s.bootEnable s.granules eeprom = .ok m → ∃ t,
      exec (.bootInstall eeprom) s = .next t ∧
      (∀ (w : WindowId) x, m.windows[w.val]? = some x → ∃ v,
        t.window w = { generation := (s.window w).generation, life := some v } ∧ v.state = .active ∧
        v.home = ⟨x.base, x.len⟩ ∧ v.executing = 0 ∧ v.held = 0 ∧ v.quietPending = false ∧
        v.grants.Pairwise (fun g h => g.node < h.node) ∧
        (∀ g ∈ x.grants, ∃ (h : g.node < 4) (r : Rights), r.code = g.rights ∧
          GrantRecord.fresh ⟨g.node, h⟩ g.base r ∈ v.grants ∧ w ∈ t.map ⟨g.node, h⟩) ∧
        v.grants.length = x.grants.length) ∧
      ∀ w : WindowId, m.windows.length ≤ w.val → t.window w = s.window w

/-- The boot image reads back as it was written, whatever follows it in the EEPROM, and a wrong checksum is refused. A
disabled load reads nothing; an enabled one fails by the first point of the reading order that fails (R167, R173): the
signature, the version, a window count over 8, and in image order each window's grant count over 4. The model's own are
that bytes missing at any point are an EEPROM that does not acknowledge them, so NO_DEVICE (the list is the bytes it
delivers, log 19), and that a signature is wrong when either of its bytes is (log 18). -/
def Obligations.BootImageReadsBack : Prop :=
  (∀ (m : BootImage) (tail : List Byte), m.fits →
      readImage (m.encode ++ tail) = .ok m ∧
      ∀ c0 c1 : Byte, leValue [c0, c1] ≠ checksum m.body →
        readImage (m.body ++ [c0, c1] ++ tail) = .error ⟨.badChecksum, none⟩) ∧
  (∀ (granules : Nat) (eeprom : List Byte),
    bootLoad false granules eeprom = .error ⟨.notEnabled, none⟩ ∧
    (eeprom.length < 2 → bootLoad true granules eeprom = .error ⟨.noDevice, none⟩) ∧
    ∀ s0 s1 rest, eeprom = s0 :: s1 :: rest →
      (s0 ≠ 0x5A ∨ s1 ≠ 0xA5 → bootLoad true granules eeprom = .error ⟨.badSignature, none⟩) ∧
      (s0 = 0x5A → s1 = 0xA5 →
        (rest = [] → bootLoad true granules eeprom = .error ⟨.noDevice, none⟩) ∧
        ∀ version body, rest = version :: body →
          (version ≠ 0x01 → bootLoad true granules eeprom = .error ⟨.badVersion, none⟩) ∧
          (version = 0x01 → body.length < 9 → bootLoad true granules eeprom = .error ⟨.noDevice, none⟩) ∧
          ∀ h0 h1 r0 r1 p0 p1 policy mask count tail, version = 0x01 →
            body = h0 :: h1 :: r0 :: r1 :: p0 :: p1 :: policy :: mask :: count :: tail → 8 < count.toNat →
            bootLoad true granules eeprom = .error ⟨.badEntry, some .settings⟩)) ∧
  ∀ (granules : Nat) (m : BootImage) (count : Byte) (tail eeprom : List Byte),
    m.fits → count.toNat ≤ 8 → m.windows.length ≤ count.toNat →
    eeprom = m.header count ++ m.windows.flatMap ImageWindow.encode ++ tail →
    (m.windows.length = count.toNat → tail.length < 2 →
      bootLoad true granules eeprom = .error ⟨.noDevice, none⟩) ∧
    (m.windows.length < count.toNat →
      (tail.length < 7 → bootLoad true granules eeprom = .error ⟨.noDevice, none⟩) ∧
      ∀ b0 b1 b2 b3 l0 l1 grants rest, tail = b0 :: b1 :: b2 :: b3 :: l0 :: l1 :: grants :: rest →
        (4 < grants.toNat → ∀ i : Fin 8, i.val = m.windows.length →
          bootLoad true granules eeprom = .error ⟨.badEntry, some (.window i)⟩) ∧
        (grants.toNat ≤ 4 → rest.length < 7 * grants.toNat →
          bootLoad true granules eeprom = .error ⟨.noDevice, none⟩))

/-- A read image whose checksum matches is validated: settings out of range are BAD_ENTRY with entry SETTINGS, the first
window that breaks an order from 2 to 7 is BAD_ENTRY with its index, and an image that keeps them all is LOADED (R168,
R173). That the orders are taken window by window, each with its grants, is the model's reading (log 18). -/
def Obligations.BootImageIsValidated : Prop :=
  ∀ (granules : Nat) (m : BootImage) (tail eeprom : List Byte), m.fits → eeprom = m.encode ++ tail →
    (255 < m.copyPacing ∨ 1 < m.policy ∨ 15 < m.mask →
      bootLoad true granules eeprom = .error ⟨.badEntry, some .settings⟩) ∧
    (m.copyPacing ≤ 255 → m.policy ≤ 1 → m.mask ≤ 15 →
      (∀ below x above (i : Fin 8), m.windows = below ++ x :: above → i.val = below.length →
        (∀ before y after, below = before ++ y :: after → y.passes granules before) → ¬x.passes granules below →
        bootLoad true granules eeprom = .error ⟨.badEntry, some (.window i)⟩) ∧
      ((∀ before y after, m.windows = before ++ y :: after → y.passes granules before) →
        bootLoad true granules eeprom = .ok m))

/-! ### Invariants -/

/-- Every step keeps the pool's lists in canonical form: addresses rise strictly in the values and in the marks (the
form is the model's). -/
def Obligations.StepKeepsPoolCanonical : Prop :=
  ∀ s t : State, s.PoolCanonical → step s = .next t → t.PoolCanonical

/-- Every step keeps every hold queue within eight entries, and a node that is not ADMITTED holds none (R96, R105). -/
def Obligations.StepKeepsHoldsBounded : Prop := ∀ s t : State, s.HoldsBounded → step s = .next t → t.HoldsBounded

/-- Every step keeps hold queues, tag tables and transaction records naming each other (R74, R76, R96). -/
def Obligations.StepKeepsTagsAgree : Prop := ∀ s t : State, s.TagsAgree → step s = .next t → t.TagsAgree

/-- Every step keeps the law of R28: each granule of the pool lies in exactly one of the free entries, the homes and
the spares, and the Free Extent List is ordered and merged (R28, R27, R131). -/
def Obligations.StepKeepsGranulesOwned : Prop := ∀ s t : State, s.Owned → step s = .next t → t.Owned

/-- Every step keeps the notice numbers of a node's REVOKING grants distinct (R72, R112). -/
def Obligations.StepKeepsNoticesDistinct : Prop :=
  ∀ s t : State, s.NoticesDistinct → step s = .next t → t.NoticesDistinct

/-- Every step keeps the node maps and the grant lists: a window's grants stand by node number, at most one for each
node, and a node's map holds exactly its LISTED and REVOKING grants, each once, at most 32, by node base without
overlap, on granule boundaries below 2^40 (R13, R36, R39, R40, R41). The lengths of a job's extents, which the switch
exchanges, are those of the ownership law. -/
def Obligations.StepKeepsMapsOrdered : Prop :=
  ∀ s t : State, s.Owned → s.MapsOrdered → step s = .next t → t.MapsOrdered

/-- Every step keeps the law of R9: the executing and held counts of each window and grant equal the transaction
records and hold entries, and each record and entry stands under its grant (R9, R10, R11, R106). -/
def Obligations.StepKeepsCountsAgree : Prop :=
  ∀ s t : State, s.Owned → s.TagsAgree → s.MapsOrdered → s.CountsAgree → step s = .next t → t.CountsAgree

/-- The state of device reset meets each invariant that a step is stated to keep. -/
def Obligations.ResetMeetsInvariants : Prop :=
  State.reset.PoolCanonical ∧ State.reset.HoldsBounded ∧ State.reset.TagsAgree ∧ State.reset.Owned ∧
    State.reset.NoticesDistinct ∧ State.reset.MapsOrdered ∧ State.reset.CountsAgree

end Statements
end

