-- ==== Sys2Proof/Laws/Commands.lean ====
section
/-! SUPPORT. Events outside reset, the completion of a command, and the reading of its parameters. -/

namespace Sys2Proof.Machine

/-- Outside reset an event acts. -/
theorem event_free {s : State} (h : s.resetHeld = false) (f : State → State) : event f s = .next (f s) := by
  simp [event, h]

/-- While reset is held an event changes nothing. -/
theorem event_held {s : State} (h : s.resetHeld = true) (f : State → State) : event f s = .next s := by
  simp [event, h]

@[simp] theorem ofCode_code (c : Cmd) : Cmd.ofCode c.code = some c := by
  cases c <;> decide

/-- A command's completion does what `complete` says and writes the slots (R152). -/
theorem commandCompletion_of_completing {s : State} {c : Cmd} {p : Vector Word 8} (h : s.completing c p) :
    exec .commandCompletion s =
      .next ((complete c p s).state.completed (complete c p s).code (complete c p s).results) := by
  simp [exec, execCommandCompletion, event_free h.1, h.2, runTaken, Completion.close, State.completed]

/-- A handle that names a window in use passes or fails by the table of R7 alone (R6). -/
theorem windowCheck_of_names {s : State} {p : Vector Word 8} {w : WindowId} {v : Live} (h : s.names p w v) (c : Cmd) :
    s.windowCheck c p =
      if Cmd.takenIn c v.state then .passed w v else .refused .wrongState [slotOf v.state.code] := by
  obtain ⟨h0, hl, hg⟩ := h
  have hw : (⟨param p 0, by rw [h0]; exact w.isLt⟩ : WindowId) = w := Fin.ext h0
  have h1 : ¬255 < (s.window w).generation.toNat := by
    have := (s.window w).generation.isLt
    omega
  simp only [State.windowCheck, hw, hl, hg, ne_eq, not_true_eq_false]
  simp [h0, h1]

theorem nodeParam_of_eq {p : Vector Word 8} {i : Fin 8} {n : NodeId} (h : param p i = n.val) :
    nodeParam p i = some n := by
  simp [nodeParam, h]

theorem nodeParam_of_gt {p : Vector Word 8} {i : Fin 8} (h : 3 < param p i) : nodeParam p i = none := by
  simp [nodeParam, show ¬param p i < 4 by omega]

theorem slotParam_of_eq {p : Vector Word 8} {i : Fin 8} {j : SlotId} (h : param p i = j.val) :
    slotParam p i = some j := by
  simp [slotParam, h]

theorem slotParam_of_gt {p : Vector Word 8} {i : Fin 8} (h : 3 < param p i) : slotParam p i = none := by
  simp [slotParam, show ¬param p i < 4 by omega]

@[simp] theorem rightsOfCode_code (r : Rights) : Rights.ofCode r.code = some r := by
  cases r <;> rfl

theorem rightsOfCode_none {k : Nat} (h1 : k ≠ 1) (h2 : k ≠ 2) : Rights.ofCode k = none := by
  unfold Rights.ofCode
  split <;> simp_all

/-- Four bytes in a slot weigh as their places do. -/
theorem packBytes_of_lt {b0 b1 b2 b3 : Nat} (h0 : b0 < 256) (h1 : b1 < 256) (h2 : b2 < 256) (h3 : b3 < 256) :
    packBytes b0 b1 b2 b3 = slotOf (b0 + 256 * b1 + 65536 * b2 + 16777216 * b3) := by
  simp only [packBytes, Nat.mod_eq_of_lt h0, Nat.mod_eq_of_lt h1, Nat.mod_eq_of_lt h2, Nat.mod_eq_of_lt h3]
  congr 1
  ring

end Sys2Proof.Machine
end

