-- ==== Sys2Proof/Laws/Extents.lean ====
section
/-! SUPPORT. What allocation and release do to the granules the Free Extent List covers, and to its order. -/

namespace Sys2Proof.Machine

theorem covers_iff {e : Extent} {g : Nat} : e.covers g = true ↔ e.base ≤ g ∧ g < e.base + e.len := by
  simp [Extent.covers]

/-- How many entries cover a granule. -/
def coverCount (l : List Extent) (g : Nat) : Nat := l.countP fun e => e.covers g

@[simp] theorem coverCount_nil (g : Nat) : coverCount [] g = 0 := rfl

@[simp] theorem coverCount_append (l m : List Extent) (g : Nat) :
    coverCount (l ++ m) g = coverCount l g + coverCount m g := by
  simp [coverCount]

theorem coverCount_cons (e : Extent) (l : List Extent) (g : Nat) :
    coverCount (e :: l) g = coverCount l g + if e.base ≤ g ∧ g < e.base + e.len then 1 else 0 := by
  simp [coverCount, List.countP_cons, covers_iff]

theorem coverCount_eq (l : List Extent) (g : Nat) : coverCount l g = (l.filter fun e => e.covers g).length := by
  simp [coverCount, List.countP_eq_length_filter]

/-! ### First fit -/

theorem firstFit_length {len : Nat} {l l' : List Extent} {x : Extent} (h : firstFit len l = some (x, l')) :
    x.len = len := by
  induction l generalizing l' with
  | nil => simp [firstFit] at h
  | cons e rest ih =>
    simp only [firstFit] at h
    split at h
    · simp only [Option.some.injEq, Prod.mk.injEq] at h
      rw [← h.1]
      assumption
    · split at h
      · simp only [Option.some.injEq, Prod.mk.injEq] at h
        rw [← h.1]
      · simp only [Option.map_eq_some_iff, Prod.mk.injEq, Prod.exists] at h
        obtain ⟨y, r, h1, rfl, -⟩ := h
        exact ih h1

/-- First fit takes its extent out of the list: every granule is covered as often as before, by one or the other. -/
theorem firstFit_cover {len : Nat} {l l' : List Extent} {x : Extent} (h : firstFit len l = some (x, l')) (g : Nat) :
    coverCount l g = coverCount (x :: l') g := by
  induction l generalizing l' with
  | nil => simp [firstFit] at h
  | cons e rest ih =>
    simp only [firstFit] at h
    split at h
    · simp only [Option.some.injEq, Prod.mk.injEq] at h
      rw [← h.1, ← h.2]
    · split at h
      · simp only [Option.some.injEq, Prod.mk.injEq] at h
        obtain ⟨rfl, rfl⟩ := h
        simp only [coverCount_cons]
        split_ifs <;> omega
      · simp only [Option.map_eq_some_iff, Prod.mk.injEq, Prod.exists] at h
        obtain ⟨y, r, h1, rfl, rfl⟩ := h
        have := ih h1
        simp only [coverCount_cons] at this ⊢
        omega

theorem firstFit_starts {len : Nat} {l l' : List Extent} {x : Extent} (h : firstFit len l = some (x, l')) {b : Nat}
    (hb : ∀ e ∈ l, b < e.base) : ∀ e ∈ l', b < e.base := by
  induction l generalizing l' with
  | nil => simp [firstFit] at h
  | cons e rest ih =>
    have h0 := hb e (by simp)
    have h1 : ∀ e ∈ rest, b < e.base := fun f hf => hb f (by simp [hf])
    simp only [firstFit] at h
    split at h
    · simp only [Option.some.injEq, Prod.mk.injEq] at h
      rw [← h.2]
      exact h1
    · split at h
      · simp only [Option.some.injEq, Prod.mk.injEq] at h
        obtain ⟨-, rfl⟩ := h
        intro f hf
        rcases List.mem_cons.1 hf with rfl | hf
        · simp only
          omega
        · exact h1 f hf
      · simp only [Option.map_eq_some_iff, Prod.mk.injEq, Prod.exists] at h
        obtain ⟨y, r, h2, rfl, rfl⟩ := h
        intro f hf
        rcases List.mem_cons.1 hf with rfl | hf
        · exact h0
        · exact ih h2 h1 f hf

/-- First fit keeps the list ordered and merged. -/
theorem firstFit_ordered {len : Nat} {l l' : List Extent} {x : Extent} (h : firstFit len l = some (x, l'))
    (ho : FreeListOrdered l) : FreeListOrdered l' := by
  induction l generalizing l' with
  | nil => simp [firstFit] at h
  | cons e rest ih =>
    obtain ⟨hp, hl⟩ := ho
    obtain ⟨hp1, hp2⟩ := List.pairwise_cons.1 hp
    have hrest : FreeListOrdered rest := ⟨hp2, fun f hf => hl f (by simp [hf])⟩
    simp only [firstFit] at h
    split at h
    · simp only [Option.some.injEq, Prod.mk.injEq] at h
      rw [← h.2]
      exact hrest
    · split at h
      · simp only [Option.some.injEq, Prod.mk.injEq] at h
        obtain ⟨-, rfl⟩ := h
        refine ⟨List.pairwise_cons.2 ⟨fun f hf => ?_, hp2⟩, fun f hf => ?_⟩
        · have := hp1 f hf
          simp only
          omega
        · rcases List.mem_cons.1 hf with rfl | hf
          · simp only
            omega
          · exact hrest.2 f hf
      · simp only [Option.map_eq_some_iff, Prod.mk.injEq, Prod.exists] at h
        obtain ⟨y, r, h2, rfl, rfl⟩ := h
        obtain ⟨hq1, hq2⟩ := ih h2 hrest
        refine ⟨List.pairwise_cons.2 ⟨firstFit_starts h2 hp1, hq1⟩, fun f hf => ?_⟩
        rcases List.mem_cons.1 hf with rfl | hf
        · exact hl f (by simp)
        · exact hq2 f hf

/-! ### Explicit allocation -/

theorem leftover_cover {e x : Extent} (h1 : e.base ≤ x.base) (h2 : x.base + x.len ≤ e.base + e.len)
    (l : List Extent) (g : Nat) : coverCount (e :: l) g = coverCount (x :: (leftover e x ++ l)) g := by
  simp only [leftover, coverCount_cons, coverCount_append]
  split_ifs <;> simp only [coverCount_cons, coverCount_nil] <;> (try split_ifs) <;> omega

/-- Explicit allocation takes its extent out of the list. -/
theorem allocateExplicit_cover {x : Extent} {l l' : List Extent} (h : allocateExplicit x l = some l') (g : Nat) :
    coverCount l g = coverCount (x :: l') g := by
  induction l generalizing l' with
  | nil => simp [allocateExplicit] at h
  | cons e rest ih =>
    simp only [allocateExplicit] at h
    split at h
    · rename_i hc
      simp only [Option.some.injEq] at h
      rw [← h]
      exact leftover_cover hc.1 hc.2 rest g
    · simp only [Option.map_eq_some_iff] at h
      obtain ⟨r, h1, rfl⟩ := h
      have := ih h1
      simp only [coverCount_cons] at this ⊢
      omega

theorem leftover_mem {e x f : Extent} (h : f ∈ leftover e x) (h1 : e.base ≤ x.base)
    (h2 : x.base + x.len ≤ e.base + e.len) : 1 ≤ f.len ∧ e.base ≤ f.base ∧ f.base + f.len ≤ e.base + e.len := by
  simp only [leftover, List.mem_append] at h
  rcases h with h | h <;> split at h <;> simp at h <;> subst h <;> simp only <;> omega

theorem allocateExplicit_starts {x : Extent} {l l' : List Extent} (h : allocateExplicit x l = some l') {b : Nat}
    (hb : ∀ e ∈ l, b < e.base) : ∀ e ∈ l', b < e.base := by
  induction l generalizing l' with
  | nil => simp [allocateExplicit] at h
  | cons e rest ih =>
    have h0 := hb e (by simp)
    have h1 : ∀ e ∈ rest, b < e.base := fun f hf => hb f (by simp [hf])
    simp only [allocateExplicit] at h
    split at h
    · rename_i hc
      simp only [Option.some.injEq] at h
      subst h
      intro f hf
      rcases List.mem_append.1 hf with hf | hf
      · have := leftover_mem hf hc.1 hc.2
        omega
      · exact h1 f hf
    · simp only [Option.map_eq_some_iff] at h
      obtain ⟨r, h2, rfl⟩ := h
      intro f hf
      rcases List.mem_cons.1 hf with rfl | hf
      · exact h0
      · exact ih h2 h1 f hf

/-- Explicit allocation keeps the list ordered and merged. -/
theorem allocateExplicit_ordered {x : Extent} {l l' : List Extent} (h : allocateExplicit x l = some l')
    (hx : 1 ≤ x.len) (ho : FreeListOrdered l) : FreeListOrdered l' := by
  induction l generalizing l' with
  | nil => simp [allocateExplicit] at h
  | cons e rest ih =>
    obtain ⟨hp, hl⟩ := ho
    obtain ⟨hp1, hp2⟩ := List.pairwise_cons.1 hp
    have hrest : FreeListOrdered rest := ⟨hp2, fun f hf => hl f (by simp [hf])⟩
    simp only [allocateExplicit] at h
    split at h
    · rename_i hc
      simp only [Option.some.injEq] at h
      subst h
      refine ⟨List.pairwise_append.2 ⟨?_, hp2, fun f hf k hk => ?_⟩, fun f hf => ?_⟩
      · simp only [leftover]
        split_ifs <;> simp
        omega
      · have h1 := leftover_mem hf hc.1 hc.2
        have h2 := hp1 k hk
        omega
      · rcases List.mem_append.1 hf with hf | hf
        · exact (leftover_mem hf hc.1 hc.2).1
        · exact hrest.2 f hf
    · simp only [Option.map_eq_some_iff] at h
      obtain ⟨r, h2, rfl⟩ := h
      obtain ⟨hq1, hq2⟩ := ih h2 hrest
      refine ⟨List.pairwise_cons.2 ⟨allocateExplicit_starts h2 hp1, hq1⟩, fun f hf => ?_⟩
      rcases List.mem_cons.1 hf with rfl | hf
      · exact hl f (by simp)
      · exact hq2 f hf

/-! ### Release -/

theorem mergeAbove_cover (x : Extent) (l : List Extent) (g : Nat) :
    coverCount (mergeAbove x l) g = coverCount (x :: l) g := by
  cases l with
  | nil => rfl
  | cons e rest =>
    simp only [mergeAbove]
    split
    · simp only [coverCount_cons]
      split_ifs <;> omega
    · rfl

/-- A release gives its granules back to the list. -/
theorem release_cover (x : Extent) (l : List Extent) (g : Nat) :
    coverCount (release x l) g = coverCount (x :: l) g := by
  induction l with
  | nil => rfl
  | cons e rest ih =>
    simp only [release]
    split
    · simp only [coverCount_cons] at ih ⊢
      omega
    · split
      · rw [mergeAbove_cover]
        simp only [coverCount_cons]
        split_ifs <;> omega
      · rw [mergeAbove_cover]

theorem mergeAbove_ordered {x : Extent} {l : List Extent} (hx : 1 ≤ x.len) (ho : FreeListOrdered l)
    (ha : ∀ e ∈ l, x.base + x.len ≤ e.base) : FreeListOrdered (mergeAbove x l) := by
  cases l with
  | nil => exact ⟨by simp [mergeAbove], by simpa [mergeAbove] using hx⟩
  | cons e rest =>
    obtain ⟨hp, hl⟩ := ho
    obtain ⟨hp1, hp2⟩ := List.pairwise_cons.1 hp
    have he := hl e (by simp)
    simp only [mergeAbove]
    split
    · rename_i hm
      refine ⟨List.pairwise_cons.2 ⟨fun f hf => ?_, hp2⟩, fun f hf => ?_⟩
      · have := hp1 f hf
        simp only
        omega
      · rcases List.mem_cons.1 hf with rfl | hf
        · simp only
          omega
        · exact hl f (by simp [hf])
    · rename_i hm
      have h0 := ha e (by simp)
      refine ⟨List.pairwise_cons.2 ⟨fun f hf => ?_, hp⟩, fun f hf => ?_⟩
      · rcases List.mem_cons.1 hf with rfl | hf
        · omega
        · have := hp1 f hf
          omega
      · rcases List.mem_cons.1 hf with rfl | hf
        · exact hx
        · exact hl f hf

theorem mergeAbove_starts {x : Extent} {l : List Extent} {b : Nat} (hx : b < x.base) (hb : ∀ e ∈ l, b < e.base) :
    ∀ e ∈ mergeAbove x l, b < e.base := by
  cases l with
  | nil => simpa [mergeAbove] using hx
  | cons e rest =>
    intro f hf
    simp only [mergeAbove] at hf
    split at hf <;> rcases List.mem_cons.1 hf with rfl | hf
    · exact hx
    · exact hb f (by simp [hf])
    · exact hx
    · exact hb f hf

theorem release_starts {x : Extent} {l : List Extent} {b : Nat} (hx : b < x.base) (hb : ∀ e ∈ l, b < e.base) :
    ∀ e ∈ release x l, b < e.base := by
  induction l with
  | nil => simpa [release] using hx
  | cons e rest ih =>
    have h0 := hb e (by simp)
    have h1 : ∀ e ∈ rest, b < e.base := fun f hf => hb f (by simp [hf])
    simp only [release]
    split
    · intro f hf
      rcases List.mem_cons.1 hf with rfl | hf
      · exact h0
      · exact ih h1 f hf
    · split
      · exact mergeAbove_starts h0 h1
      · exact mergeAbove_starts hx hb

/-- A release of an extent that no entry overlaps keeps the list ordered and merged. -/
theorem release_ordered {x : Extent} {l : List Extent} (hx : 1 ≤ x.len) (ho : FreeListOrdered l)
    (hd : ∀ e ∈ l, e.base + e.len ≤ x.base ∨ x.base + x.len ≤ e.base) : FreeListOrdered (release x l) := by
  induction l with
  | nil => exact ⟨by simp [release], by simpa [release] using hx⟩
  | cons e rest ih =>
    obtain ⟨hp, hl⟩ := ho
    obtain ⟨hp1, hp2⟩ := List.pairwise_cons.1 hp
    have hrest : FreeListOrdered rest := ⟨hp2, fun f hf => hl f (by simp [hf])⟩
    have hdr : ∀ f ∈ rest, f.base + f.len ≤ x.base ∨ x.base + x.len ≤ f.base := fun f hf => hd f (by simp [hf])
    have he := hl e (by simp)
    have h0 := hd e (by simp)
    simp only [release]
    split
    · rename_i hlt
      obtain ⟨hq1, hq2⟩ := ih hrest hdr
      refine ⟨List.pairwise_cons.2 ⟨release_starts hlt hp1, hq1⟩, fun f hf => ?_⟩
      rcases List.mem_cons.1 hf with rfl | hf
      · exact he
      · exact hq2 f hf
    · split
      · refine mergeAbove_ordered (by simp only; omega) hrest fun f hf => ?_
        have h1 := hp1 f hf
        have h2 := hl f (by simp [hf])
        rcases hdr f hf with h3 | h3 <;> simp only <;> omega
      · refine mergeAbove_ordered hx ⟨hp, hl⟩ fun f hf => ?_
        rcases List.mem_cons.1 hf with rfl | hf
        · rcases h0 with h3 | h3 <;> omega
        · have h1 := hp1 f hf
          omega

end Sys2Proof.Machine
end

