-- ==== Sys2Proof/Laws/State.lean ====
section
/-! SUPPORT. What each update of one record leaves in every field of State, and what it makes each record read as. -/

namespace Sys2Proof.Machine

variable (s : State)

/-! ### setWindow -/

section setWindow

variable (w : WindowId) (r : WindowRecord)

@[simp] theorem setWindow_pending : (s.setWindow w r).pending = s.pending := rfl
@[simp] theorem setWindow_resetHeld : (s.setWindow w r).resetHeld = s.resetHeld := rfl
@[simp] theorem setWindow_poolCode : (s.setWindow w r).poolCode = s.poolCode := rfl
@[simp] theorem setWindow_bootEnable : (s.setWindow w r).bootEnable = s.bootEnable := rfl
@[simp] theorem setWindow_now : (s.setWindow w r).now = s.now := rfl
@[simp] theorem setWindow_maps : (s.setWindow w r).maps = s.maps := rfl
@[simp] theorem setWindow_freeList : (s.setWindow w r).freeList = s.freeList := rfl
@[simp] theorem setWindow_ports : (s.setWindow w r).ports = s.ports := rfl
@[simp] theorem setWindow_tags : (s.setWindow w r).tags = s.tags := rfl
@[simp] theorem setWindow_transactions : (s.setWindow w r).transactions = s.transactions := rfl
@[simp] theorem setWindow_captures : (s.setWindow w r).captures = s.captures := rfl
@[simp] theorem setWindow_holds : (s.setWindow w r).holds = s.holds := rfl
@[simp] theorem setWindow_slots : (s.setWindow w r).slots = s.slots := rfl
@[simp] theorem setWindow_engine : (s.setWindow w r).engine = s.engine := rfl
@[simp] theorem setWindow_channels : (s.setWindow w r).channels = s.channels := rfl
@[simp] theorem setWindow_pool : (s.setWindow w r).pool = s.pool := rfl
@[simp] theorem setWindow_powerCycle : (s.setWindow w r).powerCycle = s.powerCycle := rfl
@[simp] theorem setWindow_nextTransaction : (s.setWindow w r).nextTransaction = s.nextTransaction := rfl
@[simp] theorem setWindow_params : (s.setWindow w r).params = s.params := rfl
@[simp] theorem setWindow_commandSlot : (s.setWindow w r).commandSlot = s.commandSlot := rfl
@[simp] theorem setWindow_errorCode : (s.setWindow w r).errorCode = s.errorCode := rfl
@[simp] theorem setWindow_err : (s.setWindow w r).err = s.err := rfl
@[simp] theorem setWindow_overrun : (s.setWindow w r).overrun = s.overrun := rfl
@[simp] theorem setWindow_booting : (s.setWindow w r).booting = s.booting := rfl
@[simp] theorem setWindow_cmdDone : (s.setWindow w r).cmdDone = s.cmdDone := rfl
@[simp] theorem setWindow_taken : (s.setWindow w r).taken = s.taken := rfl
@[simp] theorem setWindow_attention : (s.setWindow w r).attention = s.attention := rfl
@[simp] theorem setWindow_settings : (s.setWindow w r).settings = s.settings := rfl
@[simp] theorem setWindow_bootStatus : (s.setWindow w r).bootStatus = s.bootStatus := rfl
@[simp] theorem setWindow_maskInForce : (s.setWindow w r).maskInForce = s.maskInForce := rfl
@[simp] theorem setWindow_map (x : NodeId) : (s.setWindow w r).map x = s.map x := rfl
@[simp] theorem setWindow_port (x : NodeId) : (s.setWindow w r).port x = s.port x := rfl
@[simp] theorem setWindow_hold (x : NodeId) : (s.setWindow w r).hold x = s.hold x := rfl
@[simp] theorem setWindow_capture (x : NodeId) : (s.setWindow w r).capture x = s.capture x := rfl
@[simp] theorem setWindow_slot (x : SlotId) : (s.setWindow w r).slot x = s.slot x := rfl
@[simp] theorem setWindow_reasons (x : Fin 73) : (s.setWindow w r).reasons x = s.reasons x := rfl
@[simp] theorem setWindow_channel (x : ChannelId) : (s.setWindow w r).channel x = s.channel x := rfl
@[simp] theorem setWindow_tag (x : NodeId) (y : Tag) : (s.setWindow w r).tag x y = s.tag x y := rfl
@[simp] theorem setWindow_link (x : NodeId) : (s.setWindow w r).link x = s.link x := rfl

end setWindow

/-! ### setMap -/

section setMap

variable (n : NodeId) (m : List WindowId)

@[simp] theorem setMap_pending : (s.setMap n m).pending = s.pending := rfl
@[simp] theorem setMap_resetHeld : (s.setMap n m).resetHeld = s.resetHeld := rfl
@[simp] theorem setMap_poolCode : (s.setMap n m).poolCode = s.poolCode := rfl
@[simp] theorem setMap_bootEnable : (s.setMap n m).bootEnable = s.bootEnable := rfl
@[simp] theorem setMap_now : (s.setMap n m).now = s.now := rfl
@[simp] theorem setMap_windows : (s.setMap n m).windows = s.windows := rfl
@[simp] theorem setMap_freeList : (s.setMap n m).freeList = s.freeList := rfl
@[simp] theorem setMap_ports : (s.setMap n m).ports = s.ports := rfl
@[simp] theorem setMap_tags : (s.setMap n m).tags = s.tags := rfl
@[simp] theorem setMap_transactions : (s.setMap n m).transactions = s.transactions := rfl
@[simp] theorem setMap_captures : (s.setMap n m).captures = s.captures := rfl
@[simp] theorem setMap_holds : (s.setMap n m).holds = s.holds := rfl
@[simp] theorem setMap_slots : (s.setMap n m).slots = s.slots := rfl
@[simp] theorem setMap_engine : (s.setMap n m).engine = s.engine := rfl
@[simp] theorem setMap_channels : (s.setMap n m).channels = s.channels := rfl
@[simp] theorem setMap_pool : (s.setMap n m).pool = s.pool := rfl
@[simp] theorem setMap_powerCycle : (s.setMap n m).powerCycle = s.powerCycle := rfl
@[simp] theorem setMap_nextTransaction : (s.setMap n m).nextTransaction = s.nextTransaction := rfl
@[simp] theorem setMap_params : (s.setMap n m).params = s.params := rfl
@[simp] theorem setMap_commandSlot : (s.setMap n m).commandSlot = s.commandSlot := rfl
@[simp] theorem setMap_errorCode : (s.setMap n m).errorCode = s.errorCode := rfl
@[simp] theorem setMap_err : (s.setMap n m).err = s.err := rfl
@[simp] theorem setMap_overrun : (s.setMap n m).overrun = s.overrun := rfl
@[simp] theorem setMap_booting : (s.setMap n m).booting = s.booting := rfl
@[simp] theorem setMap_cmdDone : (s.setMap n m).cmdDone = s.cmdDone := rfl
@[simp] theorem setMap_taken : (s.setMap n m).taken = s.taken := rfl
@[simp] theorem setMap_attention : (s.setMap n m).attention = s.attention := rfl
@[simp] theorem setMap_settings : (s.setMap n m).settings = s.settings := rfl
@[simp] theorem setMap_bootStatus : (s.setMap n m).bootStatus = s.bootStatus := rfl
@[simp] theorem setMap_maskInForce : (s.setMap n m).maskInForce = s.maskInForce := rfl
@[simp] theorem setMap_window (x : WindowId) : (s.setMap n m).window x = s.window x := rfl
@[simp] theorem setMap_port (x : NodeId) : (s.setMap n m).port x = s.port x := rfl
@[simp] theorem setMap_hold (x : NodeId) : (s.setMap n m).hold x = s.hold x := rfl
@[simp] theorem setMap_capture (x : NodeId) : (s.setMap n m).capture x = s.capture x := rfl
@[simp] theorem setMap_slot (x : SlotId) : (s.setMap n m).slot x = s.slot x := rfl
@[simp] theorem setMap_reasons (x : Fin 73) : (s.setMap n m).reasons x = s.reasons x := rfl
@[simp] theorem setMap_channel (x : ChannelId) : (s.setMap n m).channel x = s.channel x := rfl
@[simp] theorem setMap_tag (x : NodeId) (y : Tag) : (s.setMap n m).tag x y = s.tag x y := rfl
@[simp] theorem setMap_link (x : NodeId) : (s.setMap n m).link x = s.link x := rfl

end setMap

/-! ### setPort -/

section setPort

variable (n : NodeId) (p : Port)

@[simp] theorem setPort_pending : (s.setPort n p).pending = s.pending := rfl
@[simp] theorem setPort_resetHeld : (s.setPort n p).resetHeld = s.resetHeld := rfl
@[simp] theorem setPort_poolCode : (s.setPort n p).poolCode = s.poolCode := rfl
@[simp] theorem setPort_bootEnable : (s.setPort n p).bootEnable = s.bootEnable := rfl
@[simp] theorem setPort_now : (s.setPort n p).now = s.now := rfl
@[simp] theorem setPort_windows : (s.setPort n p).windows = s.windows := rfl
@[simp] theorem setPort_maps : (s.setPort n p).maps = s.maps := rfl
@[simp] theorem setPort_freeList : (s.setPort n p).freeList = s.freeList := rfl
@[simp] theorem setPort_tags : (s.setPort n p).tags = s.tags := rfl
@[simp] theorem setPort_transactions : (s.setPort n p).transactions = s.transactions := rfl
@[simp] theorem setPort_captures : (s.setPort n p).captures = s.captures := rfl
@[simp] theorem setPort_holds : (s.setPort n p).holds = s.holds := rfl
@[simp] theorem setPort_slots : (s.setPort n p).slots = s.slots := rfl
@[simp] theorem setPort_engine : (s.setPort n p).engine = s.engine := rfl
@[simp] theorem setPort_channels : (s.setPort n p).channels = s.channels := rfl
@[simp] theorem setPort_pool : (s.setPort n p).pool = s.pool := rfl
@[simp] theorem setPort_powerCycle : (s.setPort n p).powerCycle = s.powerCycle := rfl
@[simp] theorem setPort_nextTransaction : (s.setPort n p).nextTransaction = s.nextTransaction := rfl
@[simp] theorem setPort_params : (s.setPort n p).params = s.params := rfl
@[simp] theorem setPort_commandSlot : (s.setPort n p).commandSlot = s.commandSlot := rfl
@[simp] theorem setPort_errorCode : (s.setPort n p).errorCode = s.errorCode := rfl
@[simp] theorem setPort_err : (s.setPort n p).err = s.err := rfl
@[simp] theorem setPort_overrun : (s.setPort n p).overrun = s.overrun := rfl
@[simp] theorem setPort_booting : (s.setPort n p).booting = s.booting := rfl
@[simp] theorem setPort_cmdDone : (s.setPort n p).cmdDone = s.cmdDone := rfl
@[simp] theorem setPort_taken : (s.setPort n p).taken = s.taken := rfl
@[simp] theorem setPort_attention : (s.setPort n p).attention = s.attention := rfl
@[simp] theorem setPort_settings : (s.setPort n p).settings = s.settings := rfl
@[simp] theorem setPort_bootStatus : (s.setPort n p).bootStatus = s.bootStatus := rfl
@[simp] theorem setPort_maskInForce : (s.setPort n p).maskInForce = s.maskInForce := rfl
@[simp] theorem setPort_window (x : WindowId) : (s.setPort n p).window x = s.window x := rfl
@[simp] theorem setPort_map (x : NodeId) : (s.setPort n p).map x = s.map x := rfl
@[simp] theorem setPort_hold (x : NodeId) : (s.setPort n p).hold x = s.hold x := rfl
@[simp] theorem setPort_capture (x : NodeId) : (s.setPort n p).capture x = s.capture x := rfl
@[simp] theorem setPort_slot (x : SlotId) : (s.setPort n p).slot x = s.slot x := rfl
@[simp] theorem setPort_reasons (x : Fin 73) : (s.setPort n p).reasons x = s.reasons x := rfl
@[simp] theorem setPort_channel (x : ChannelId) : (s.setPort n p).channel x = s.channel x := rfl
@[simp] theorem setPort_tag (x : NodeId) (y : Tag) : (s.setPort n p).tag x y = s.tag x y := rfl

end setPort

/-! ### setTag -/

section setTag

variable (n : NodeId) (t : Tag) (e : Option TagEntry)

@[simp] theorem setTag_pending : (s.setTag n t e).pending = s.pending := rfl
@[simp] theorem setTag_resetHeld : (s.setTag n t e).resetHeld = s.resetHeld := rfl
@[simp] theorem setTag_poolCode : (s.setTag n t e).poolCode = s.poolCode := rfl
@[simp] theorem setTag_bootEnable : (s.setTag n t e).bootEnable = s.bootEnable := rfl
@[simp] theorem setTag_now : (s.setTag n t e).now = s.now := rfl
@[simp] theorem setTag_windows : (s.setTag n t e).windows = s.windows := rfl
@[simp] theorem setTag_maps : (s.setTag n t e).maps = s.maps := rfl
@[simp] theorem setTag_freeList : (s.setTag n t e).freeList = s.freeList := rfl
@[simp] theorem setTag_ports : (s.setTag n t e).ports = s.ports := rfl
@[simp] theorem setTag_transactions : (s.setTag n t e).transactions = s.transactions := rfl
@[simp] theorem setTag_captures : (s.setTag n t e).captures = s.captures := rfl
@[simp] theorem setTag_holds : (s.setTag n t e).holds = s.holds := rfl
@[simp] theorem setTag_slots : (s.setTag n t e).slots = s.slots := rfl
@[simp] theorem setTag_engine : (s.setTag n t e).engine = s.engine := rfl
@[simp] theorem setTag_channels : (s.setTag n t e).channels = s.channels := rfl
@[simp] theorem setTag_pool : (s.setTag n t e).pool = s.pool := rfl
@[simp] theorem setTag_powerCycle : (s.setTag n t e).powerCycle = s.powerCycle := rfl
@[simp] theorem setTag_nextTransaction : (s.setTag n t e).nextTransaction = s.nextTransaction := rfl
@[simp] theorem setTag_params : (s.setTag n t e).params = s.params := rfl
@[simp] theorem setTag_commandSlot : (s.setTag n t e).commandSlot = s.commandSlot := rfl
@[simp] theorem setTag_errorCode : (s.setTag n t e).errorCode = s.errorCode := rfl
@[simp] theorem setTag_err : (s.setTag n t e).err = s.err := rfl
@[simp] theorem setTag_overrun : (s.setTag n t e).overrun = s.overrun := rfl
@[simp] theorem setTag_booting : (s.setTag n t e).booting = s.booting := rfl
@[simp] theorem setTag_cmdDone : (s.setTag n t e).cmdDone = s.cmdDone := rfl
@[simp] theorem setTag_taken : (s.setTag n t e).taken = s.taken := rfl
@[simp] theorem setTag_attention : (s.setTag n t e).attention = s.attention := rfl
@[simp] theorem setTag_settings : (s.setTag n t e).settings = s.settings := rfl
@[simp] theorem setTag_bootStatus : (s.setTag n t e).bootStatus = s.bootStatus := rfl
@[simp] theorem setTag_maskInForce : (s.setTag n t e).maskInForce = s.maskInForce := rfl
@[simp] theorem setTag_window (x : WindowId) : (s.setTag n t e).window x = s.window x := rfl
@[simp] theorem setTag_map (x : NodeId) : (s.setTag n t e).map x = s.map x := rfl
@[simp] theorem setTag_port (x : NodeId) : (s.setTag n t e).port x = s.port x := rfl
@[simp] theorem setTag_hold (x : NodeId) : (s.setTag n t e).hold x = s.hold x := rfl
@[simp] theorem setTag_capture (x : NodeId) : (s.setTag n t e).capture x = s.capture x := rfl
@[simp] theorem setTag_slot (x : SlotId) : (s.setTag n t e).slot x = s.slot x := rfl
@[simp] theorem setTag_reasons (x : Fin 73) : (s.setTag n t e).reasons x = s.reasons x := rfl
@[simp] theorem setTag_channel (x : ChannelId) : (s.setTag n t e).channel x = s.channel x := rfl
@[simp] theorem setTag_link (x : NodeId) : (s.setTag n t e).link x = s.link x := rfl

end setTag

/-! ### setHold -/

section setHold

variable (n : NodeId) (q : List HoldEntry)

@[simp] theorem setHold_pending : (s.setHold n q).pending = s.pending := rfl
@[simp] theorem setHold_resetHeld : (s.setHold n q).resetHeld = s.resetHeld := rfl
@[simp] theorem setHold_poolCode : (s.setHold n q).poolCode = s.poolCode := rfl
@[simp] theorem setHold_bootEnable : (s.setHold n q).bootEnable = s.bootEnable := rfl
@[simp] theorem setHold_now : (s.setHold n q).now = s.now := rfl
@[simp] theorem setHold_windows : (s.setHold n q).windows = s.windows := rfl
@[simp] theorem setHold_maps : (s.setHold n q).maps = s.maps := rfl
@[simp] theorem setHold_freeList : (s.setHold n q).freeList = s.freeList := rfl
@[simp] theorem setHold_ports : (s.setHold n q).ports = s.ports := rfl
@[simp] theorem setHold_tags : (s.setHold n q).tags = s.tags := rfl
@[simp] theorem setHold_transactions : (s.setHold n q).transactions = s.transactions := rfl
@[simp] theorem setHold_captures : (s.setHold n q).captures = s.captures := rfl
@[simp] theorem setHold_slots : (s.setHold n q).slots = s.slots := rfl
@[simp] theorem setHold_engine : (s.setHold n q).engine = s.engine := rfl
@[simp] theorem setHold_channels : (s.setHold n q).channels = s.channels := rfl
@[simp] theorem setHold_pool : (s.setHold n q).pool = s.pool := rfl
@[simp] theorem setHold_powerCycle : (s.setHold n q).powerCycle = s.powerCycle := rfl
@[simp] theorem setHold_nextTransaction : (s.setHold n q).nextTransaction = s.nextTransaction := rfl
@[simp] theorem setHold_params : (s.setHold n q).params = s.params := rfl
@[simp] theorem setHold_commandSlot : (s.setHold n q).commandSlot = s.commandSlot := rfl
@[simp] theorem setHold_errorCode : (s.setHold n q).errorCode = s.errorCode := rfl
@[simp] theorem setHold_err : (s.setHold n q).err = s.err := rfl
@[simp] theorem setHold_overrun : (s.setHold n q).overrun = s.overrun := rfl
@[simp] theorem setHold_booting : (s.setHold n q).booting = s.booting := rfl
@[simp] theorem setHold_cmdDone : (s.setHold n q).cmdDone = s.cmdDone := rfl
@[simp] theorem setHold_taken : (s.setHold n q).taken = s.taken := rfl
@[simp] theorem setHold_attention : (s.setHold n q).attention = s.attention := rfl
@[simp] theorem setHold_settings : (s.setHold n q).settings = s.settings := rfl
@[simp] theorem setHold_bootStatus : (s.setHold n q).bootStatus = s.bootStatus := rfl
@[simp] theorem setHold_maskInForce : (s.setHold n q).maskInForce = s.maskInForce := rfl
@[simp] theorem setHold_window (x : WindowId) : (s.setHold n q).window x = s.window x := rfl
@[simp] theorem setHold_map (x : NodeId) : (s.setHold n q).map x = s.map x := rfl
@[simp] theorem setHold_port (x : NodeId) : (s.setHold n q).port x = s.port x := rfl
@[simp] theorem setHold_capture (x : NodeId) : (s.setHold n q).capture x = s.capture x := rfl
@[simp] theorem setHold_slot (x : SlotId) : (s.setHold n q).slot x = s.slot x := rfl
@[simp] theorem setHold_reasons (x : Fin 73) : (s.setHold n q).reasons x = s.reasons x := rfl
@[simp] theorem setHold_channel (x : ChannelId) : (s.setHold n q).channel x = s.channel x := rfl
@[simp] theorem setHold_tag (x : NodeId) (y : Tag) : (s.setHold n q).tag x y = s.tag x y := rfl
@[simp] theorem setHold_link (x : NodeId) : (s.setHold n q).link x = s.link x := rfl

end setHold

/-! ### setCapture -/

section setCapture

variable (n : NodeId) (c : Option Capture)

@[simp] theorem setCapture_pending : (s.setCapture n c).pending = s.pending := rfl
@[simp] theorem setCapture_resetHeld : (s.setCapture n c).resetHeld = s.resetHeld := rfl
@[simp] theorem setCapture_poolCode : (s.setCapture n c).poolCode = s.poolCode := rfl
@[simp] theorem setCapture_bootEnable : (s.setCapture n c).bootEnable = s.bootEnable := rfl
@[simp] theorem setCapture_now : (s.setCapture n c).now = s.now := rfl
@[simp] theorem setCapture_windows : (s.setCapture n c).windows = s.windows := rfl
@[simp] theorem setCapture_maps : (s.setCapture n c).maps = s.maps := rfl
@[simp] theorem setCapture_freeList : (s.setCapture n c).freeList = s.freeList := rfl
@[simp] theorem setCapture_ports : (s.setCapture n c).ports = s.ports := rfl
@[simp] theorem setCapture_tags : (s.setCapture n c).tags = s.tags := rfl
@[simp] theorem setCapture_transactions : (s.setCapture n c).transactions = s.transactions := rfl
@[simp] theorem setCapture_holds : (s.setCapture n c).holds = s.holds := rfl
@[simp] theorem setCapture_slots : (s.setCapture n c).slots = s.slots := rfl
@[simp] theorem setCapture_engine : (s.setCapture n c).engine = s.engine := rfl
@[simp] theorem setCapture_channels : (s.setCapture n c).channels = s.channels := rfl
@[simp] theorem setCapture_pool : (s.setCapture n c).pool = s.pool := rfl
@[simp] theorem setCapture_powerCycle : (s.setCapture n c).powerCycle = s.powerCycle := rfl
@[simp] theorem setCapture_nextTransaction : (s.setCapture n c).nextTransaction = s.nextTransaction := rfl
@[simp] theorem setCapture_params : (s.setCapture n c).params = s.params := rfl
@[simp] theorem setCapture_commandSlot : (s.setCapture n c).commandSlot = s.commandSlot := rfl
@[simp] theorem setCapture_errorCode : (s.setCapture n c).errorCode = s.errorCode := rfl
@[simp] theorem setCapture_err : (s.setCapture n c).err = s.err := rfl
@[simp] theorem setCapture_overrun : (s.setCapture n c).overrun = s.overrun := rfl
@[simp] theorem setCapture_booting : (s.setCapture n c).booting = s.booting := rfl
@[simp] theorem setCapture_cmdDone : (s.setCapture n c).cmdDone = s.cmdDone := rfl
@[simp] theorem setCapture_taken : (s.setCapture n c).taken = s.taken := rfl
@[simp] theorem setCapture_attention : (s.setCapture n c).attention = s.attention := rfl
@[simp] theorem setCapture_settings : (s.setCapture n c).settings = s.settings := rfl
@[simp] theorem setCapture_bootStatus : (s.setCapture n c).bootStatus = s.bootStatus := rfl
@[simp] theorem setCapture_maskInForce : (s.setCapture n c).maskInForce = s.maskInForce := rfl
@[simp] theorem setCapture_window (x : WindowId) : (s.setCapture n c).window x = s.window x := rfl
@[simp] theorem setCapture_map (x : NodeId) : (s.setCapture n c).map x = s.map x := rfl
@[simp] theorem setCapture_port (x : NodeId) : (s.setCapture n c).port x = s.port x := rfl
@[simp] theorem setCapture_hold (x : NodeId) : (s.setCapture n c).hold x = s.hold x := rfl
@[simp] theorem setCapture_slot (x : SlotId) : (s.setCapture n c).slot x = s.slot x := rfl
@[simp] theorem setCapture_reasons (x : Fin 73) : (s.setCapture n c).reasons x = s.reasons x := rfl
@[simp] theorem setCapture_channel (x : ChannelId) : (s.setCapture n c).channel x = s.channel x := rfl
@[simp] theorem setCapture_tag (x : NodeId) (y : Tag) : (s.setCapture n c).tag x y = s.tag x y := rfl
@[simp] theorem setCapture_link (x : NodeId) : (s.setCapture n c).link x = s.link x := rfl

end setCapture

/-! ### setSlot -/

section setSlot

variable (j : SlotId) (t : Slot)

@[simp] theorem setSlot_pending : (s.setSlot j t).pending = s.pending := rfl
@[simp] theorem setSlot_resetHeld : (s.setSlot j t).resetHeld = s.resetHeld := rfl
@[simp] theorem setSlot_poolCode : (s.setSlot j t).poolCode = s.poolCode := rfl
@[simp] theorem setSlot_bootEnable : (s.setSlot j t).bootEnable = s.bootEnable := rfl
@[simp] theorem setSlot_now : (s.setSlot j t).now = s.now := rfl
@[simp] theorem setSlot_windows : (s.setSlot j t).windows = s.windows := rfl
@[simp] theorem setSlot_maps : (s.setSlot j t).maps = s.maps := rfl
@[simp] theorem setSlot_freeList : (s.setSlot j t).freeList = s.freeList := rfl
@[simp] theorem setSlot_ports : (s.setSlot j t).ports = s.ports := rfl
@[simp] theorem setSlot_tags : (s.setSlot j t).tags = s.tags := rfl
@[simp] theorem setSlot_transactions : (s.setSlot j t).transactions = s.transactions := rfl
@[simp] theorem setSlot_captures : (s.setSlot j t).captures = s.captures := rfl
@[simp] theorem setSlot_holds : (s.setSlot j t).holds = s.holds := rfl
@[simp] theorem setSlot_engine : (s.setSlot j t).engine = s.engine := rfl
@[simp] theorem setSlot_channels : (s.setSlot j t).channels = s.channels := rfl
@[simp] theorem setSlot_pool : (s.setSlot j t).pool = s.pool := rfl
@[simp] theorem setSlot_powerCycle : (s.setSlot j t).powerCycle = s.powerCycle := rfl
@[simp] theorem setSlot_nextTransaction : (s.setSlot j t).nextTransaction = s.nextTransaction := rfl
@[simp] theorem setSlot_params : (s.setSlot j t).params = s.params := rfl
@[simp] theorem setSlot_commandSlot : (s.setSlot j t).commandSlot = s.commandSlot := rfl
@[simp] theorem setSlot_errorCode : (s.setSlot j t).errorCode = s.errorCode := rfl
@[simp] theorem setSlot_err : (s.setSlot j t).err = s.err := rfl
@[simp] theorem setSlot_overrun : (s.setSlot j t).overrun = s.overrun := rfl
@[simp] theorem setSlot_booting : (s.setSlot j t).booting = s.booting := rfl
@[simp] theorem setSlot_cmdDone : (s.setSlot j t).cmdDone = s.cmdDone := rfl
@[simp] theorem setSlot_taken : (s.setSlot j t).taken = s.taken := rfl
@[simp] theorem setSlot_attention : (s.setSlot j t).attention = s.attention := rfl
@[simp] theorem setSlot_settings : (s.setSlot j t).settings = s.settings := rfl
@[simp] theorem setSlot_bootStatus : (s.setSlot j t).bootStatus = s.bootStatus := rfl
@[simp] theorem setSlot_maskInForce : (s.setSlot j t).maskInForce = s.maskInForce := rfl
@[simp] theorem setSlot_window (x : WindowId) : (s.setSlot j t).window x = s.window x := rfl
@[simp] theorem setSlot_map (x : NodeId) : (s.setSlot j t).map x = s.map x := rfl
@[simp] theorem setSlot_port (x : NodeId) : (s.setSlot j t).port x = s.port x := rfl
@[simp] theorem setSlot_hold (x : NodeId) : (s.setSlot j t).hold x = s.hold x := rfl
@[simp] theorem setSlot_capture (x : NodeId) : (s.setSlot j t).capture x = s.capture x := rfl
@[simp] theorem setSlot_reasons (x : Fin 73) : (s.setSlot j t).reasons x = s.reasons x := rfl
@[simp] theorem setSlot_channel (x : ChannelId) : (s.setSlot j t).channel x = s.channel x := rfl
@[simp] theorem setSlot_tag (x : NodeId) (y : Tag) : (s.setSlot j t).tag x y = s.tag x y := rfl
@[simp] theorem setSlot_link (x : NodeId) : (s.setSlot j t).link x = s.link x := rfl

end setSlot

/-! ### setPhase -/

section setPhase

variable (p : EnginePhase)

@[simp] theorem setPhase_pending : (s.setPhase p).pending = s.pending := rfl
@[simp] theorem setPhase_resetHeld : (s.setPhase p).resetHeld = s.resetHeld := rfl
@[simp] theorem setPhase_poolCode : (s.setPhase p).poolCode = s.poolCode := rfl
@[simp] theorem setPhase_bootEnable : (s.setPhase p).bootEnable = s.bootEnable := rfl
@[simp] theorem setPhase_now : (s.setPhase p).now = s.now := rfl
@[simp] theorem setPhase_windows : (s.setPhase p).windows = s.windows := rfl
@[simp] theorem setPhase_maps : (s.setPhase p).maps = s.maps := rfl
@[simp] theorem setPhase_freeList : (s.setPhase p).freeList = s.freeList := rfl
@[simp] theorem setPhase_ports : (s.setPhase p).ports = s.ports := rfl
@[simp] theorem setPhase_tags : (s.setPhase p).tags = s.tags := rfl
@[simp] theorem setPhase_transactions : (s.setPhase p).transactions = s.transactions := rfl
@[simp] theorem setPhase_captures : (s.setPhase p).captures = s.captures := rfl
@[simp] theorem setPhase_holds : (s.setPhase p).holds = s.holds := rfl
@[simp] theorem setPhase_slots : (s.setPhase p).slots = s.slots := rfl
@[simp] theorem setPhase_channels : (s.setPhase p).channels = s.channels := rfl
@[simp] theorem setPhase_pool : (s.setPhase p).pool = s.pool := rfl
@[simp] theorem setPhase_powerCycle : (s.setPhase p).powerCycle = s.powerCycle := rfl
@[simp] theorem setPhase_nextTransaction : (s.setPhase p).nextTransaction = s.nextTransaction := rfl
@[simp] theorem setPhase_params : (s.setPhase p).params = s.params := rfl
@[simp] theorem setPhase_commandSlot : (s.setPhase p).commandSlot = s.commandSlot := rfl
@[simp] theorem setPhase_errorCode : (s.setPhase p).errorCode = s.errorCode := rfl
@[simp] theorem setPhase_err : (s.setPhase p).err = s.err := rfl
@[simp] theorem setPhase_overrun : (s.setPhase p).overrun = s.overrun := rfl
@[simp] theorem setPhase_booting : (s.setPhase p).booting = s.booting := rfl
@[simp] theorem setPhase_cmdDone : (s.setPhase p).cmdDone = s.cmdDone := rfl
@[simp] theorem setPhase_taken : (s.setPhase p).taken = s.taken := rfl
@[simp] theorem setPhase_attention : (s.setPhase p).attention = s.attention := rfl
@[simp] theorem setPhase_settings : (s.setPhase p).settings = s.settings := rfl
@[simp] theorem setPhase_bootStatus : (s.setPhase p).bootStatus = s.bootStatus := rfl
@[simp] theorem setPhase_maskInForce : (s.setPhase p).maskInForce = s.maskInForce := rfl
@[simp] theorem setPhase_window (x : WindowId) : (s.setPhase p).window x = s.window x := rfl
@[simp] theorem setPhase_map (x : NodeId) : (s.setPhase p).map x = s.map x := rfl
@[simp] theorem setPhase_port (x : NodeId) : (s.setPhase p).port x = s.port x := rfl
@[simp] theorem setPhase_hold (x : NodeId) : (s.setPhase p).hold x = s.hold x := rfl
@[simp] theorem setPhase_capture (x : NodeId) : (s.setPhase p).capture x = s.capture x := rfl
@[simp] theorem setPhase_slot (x : SlotId) : (s.setPhase p).slot x = s.slot x := rfl
@[simp] theorem setPhase_reasons (x : Fin 73) : (s.setPhase p).reasons x = s.reasons x := rfl
@[simp] theorem setPhase_channel (x : ChannelId) : (s.setPhase p).channel x = s.channel x := rfl
@[simp] theorem setPhase_tag (x : NodeId) (y : Tag) : (s.setPhase p).tag x y = s.tag x y := rfl
@[simp] theorem setPhase_link (x : NodeId) : (s.setPhase p).link x = s.link x := rfl

end setPhase

/-! ### setReasons -/

section setReasons

variable (i : Fin 73) (r : BitVec 6)

@[simp] theorem setReasons_pending : (s.setReasons i r).pending = s.pending := rfl
@[simp] theorem setReasons_resetHeld : (s.setReasons i r).resetHeld = s.resetHeld := rfl
@[simp] theorem setReasons_poolCode : (s.setReasons i r).poolCode = s.poolCode := rfl
@[simp] theorem setReasons_bootEnable : (s.setReasons i r).bootEnable = s.bootEnable := rfl
@[simp] theorem setReasons_now : (s.setReasons i r).now = s.now := rfl
@[simp] theorem setReasons_windows : (s.setReasons i r).windows = s.windows := rfl
@[simp] theorem setReasons_maps : (s.setReasons i r).maps = s.maps := rfl
@[simp] theorem setReasons_freeList : (s.setReasons i r).freeList = s.freeList := rfl
@[simp] theorem setReasons_ports : (s.setReasons i r).ports = s.ports := rfl
@[simp] theorem setReasons_tags : (s.setReasons i r).tags = s.tags := rfl
@[simp] theorem setReasons_transactions : (s.setReasons i r).transactions = s.transactions := rfl
@[simp] theorem setReasons_captures : (s.setReasons i r).captures = s.captures := rfl
@[simp] theorem setReasons_holds : (s.setReasons i r).holds = s.holds := rfl
@[simp] theorem setReasons_slots : (s.setReasons i r).slots = s.slots := rfl
@[simp] theorem setReasons_engine : (s.setReasons i r).engine = s.engine := rfl
@[simp] theorem setReasons_channels : (s.setReasons i r).channels = s.channels := rfl
@[simp] theorem setReasons_pool : (s.setReasons i r).pool = s.pool := rfl
@[simp] theorem setReasons_powerCycle : (s.setReasons i r).powerCycle = s.powerCycle := rfl
@[simp] theorem setReasons_nextTransaction : (s.setReasons i r).nextTransaction = s.nextTransaction := rfl
@[simp] theorem setReasons_params : (s.setReasons i r).params = s.params := rfl
@[simp] theorem setReasons_commandSlot : (s.setReasons i r).commandSlot = s.commandSlot := rfl
@[simp] theorem setReasons_errorCode : (s.setReasons i r).errorCode = s.errorCode := rfl
@[simp] theorem setReasons_err : (s.setReasons i r).err = s.err := rfl
@[simp] theorem setReasons_overrun : (s.setReasons i r).overrun = s.overrun := rfl
@[simp] theorem setReasons_booting : (s.setReasons i r).booting = s.booting := rfl
@[simp] theorem setReasons_cmdDone : (s.setReasons i r).cmdDone = s.cmdDone := rfl
@[simp] theorem setReasons_taken : (s.setReasons i r).taken = s.taken := rfl
@[simp] theorem setReasons_settings : (s.setReasons i r).settings = s.settings := rfl
@[simp] theorem setReasons_bootStatus : (s.setReasons i r).bootStatus = s.bootStatus := rfl
@[simp] theorem setReasons_maskInForce : (s.setReasons i r).maskInForce = s.maskInForce := rfl
@[simp] theorem setReasons_window (x : WindowId) : (s.setReasons i r).window x = s.window x := rfl
@[simp] theorem setReasons_map (x : NodeId) : (s.setReasons i r).map x = s.map x := rfl
@[simp] theorem setReasons_port (x : NodeId) : (s.setReasons i r).port x = s.port x := rfl
@[simp] theorem setReasons_hold (x : NodeId) : (s.setReasons i r).hold x = s.hold x := rfl
@[simp] theorem setReasons_capture (x : NodeId) : (s.setReasons i r).capture x = s.capture x := rfl
@[simp] theorem setReasons_slot (x : SlotId) : (s.setReasons i r).slot x = s.slot x := rfl
@[simp] theorem setReasons_channel (x : ChannelId) : (s.setReasons i r).channel x = s.channel x := rfl
@[simp] theorem setReasons_tag (x : NodeId) (y : Tag) : (s.setReasons i r).tag x y = s.tag x y := rfl
@[simp] theorem setReasons_link (x : NodeId) : (s.setReasons i r).link x = s.link x := rfl

end setReasons

/-! ### setChannel -/

section setChannel

variable (c : ChannelId) (q : List PoolOp)

@[simp] theorem setChannel_pending : (s.setChannel c q).pending = s.pending := rfl
@[simp] theorem setChannel_resetHeld : (s.setChannel c q).resetHeld = s.resetHeld := rfl
@[simp] theorem setChannel_poolCode : (s.setChannel c q).poolCode = s.poolCode := rfl
@[simp] theorem setChannel_bootEnable : (s.setChannel c q).bootEnable = s.bootEnable := rfl
@[simp] theorem setChannel_now : (s.setChannel c q).now = s.now := rfl
@[simp] theorem setChannel_windows : (s.setChannel c q).windows = s.windows := rfl
@[simp] theorem setChannel_maps : (s.setChannel c q).maps = s.maps := rfl
@[simp] theorem setChannel_freeList : (s.setChannel c q).freeList = s.freeList := rfl
@[simp] theorem setChannel_ports : (s.setChannel c q).ports = s.ports := rfl
@[simp] theorem setChannel_tags : (s.setChannel c q).tags = s.tags := rfl
@[simp] theorem setChannel_transactions : (s.setChannel c q).transactions = s.transactions := rfl
@[simp] theorem setChannel_captures : (s.setChannel c q).captures = s.captures := rfl
@[simp] theorem setChannel_holds : (s.setChannel c q).holds = s.holds := rfl
@[simp] theorem setChannel_slots : (s.setChannel c q).slots = s.slots := rfl
@[simp] theorem setChannel_engine : (s.setChannel c q).engine = s.engine := rfl
@[simp] theorem setChannel_pool : (s.setChannel c q).pool = s.pool := rfl
@[simp] theorem setChannel_powerCycle : (s.setChannel c q).powerCycle = s.powerCycle := rfl
@[simp] theorem setChannel_nextTransaction : (s.setChannel c q).nextTransaction = s.nextTransaction := rfl
@[simp] theorem setChannel_params : (s.setChannel c q).params = s.params := rfl
@[simp] theorem setChannel_commandSlot : (s.setChannel c q).commandSlot = s.commandSlot := rfl
@[simp] theorem setChannel_errorCode : (s.setChannel c q).errorCode = s.errorCode := rfl
@[simp] theorem setChannel_err : (s.setChannel c q).err = s.err := rfl
@[simp] theorem setChannel_overrun : (s.setChannel c q).overrun = s.overrun := rfl
@[simp] theorem setChannel_booting : (s.setChannel c q).booting = s.booting := rfl
@[simp] theorem setChannel_cmdDone : (s.setChannel c q).cmdDone = s.cmdDone := rfl
@[simp] theorem setChannel_taken : (s.setChannel c q).taken = s.taken := rfl
@[simp] theorem setChannel_attention : (s.setChannel c q).attention = s.attention := rfl
@[simp] theorem setChannel_settings : (s.setChannel c q).settings = s.settings := rfl
@[simp] theorem setChannel_bootStatus : (s.setChannel c q).bootStatus = s.bootStatus := rfl
@[simp] theorem setChannel_maskInForce : (s.setChannel c q).maskInForce = s.maskInForce := rfl
@[simp] theorem setChannel_window (x : WindowId) : (s.setChannel c q).window x = s.window x := rfl
@[simp] theorem setChannel_map (x : NodeId) : (s.setChannel c q).map x = s.map x := rfl
@[simp] theorem setChannel_port (x : NodeId) : (s.setChannel c q).port x = s.port x := rfl
@[simp] theorem setChannel_hold (x : NodeId) : (s.setChannel c q).hold x = s.hold x := rfl
@[simp] theorem setChannel_capture (x : NodeId) : (s.setChannel c q).capture x = s.capture x := rfl
@[simp] theorem setChannel_slot (x : SlotId) : (s.setChannel c q).slot x = s.slot x := rfl
@[simp] theorem setChannel_reasons (x : Fin 73) : (s.setChannel c q).reasons x = s.reasons x := rfl
@[simp] theorem setChannel_tag (x : NodeId) (y : Tag) : (s.setChannel c q).tag x y = s.tag x y := rfl
@[simp] theorem setChannel_link (x : NodeId) : (s.setChannel c q).link x = s.link x := rfl

end setChannel

/-! ### completed -/

section completed

variable (c : ResultCode) (rs : List Word)

@[simp] theorem completed_pending : (s.completed c rs).pending = s.pending := rfl
@[simp] theorem completed_resetHeld : (s.completed c rs).resetHeld = s.resetHeld := rfl
@[simp] theorem completed_poolCode : (s.completed c rs).poolCode = s.poolCode := rfl
@[simp] theorem completed_bootEnable : (s.completed c rs).bootEnable = s.bootEnable := rfl
@[simp] theorem completed_now : (s.completed c rs).now = s.now := rfl
@[simp] theorem completed_windows : (s.completed c rs).windows = s.windows := rfl
@[simp] theorem completed_maps : (s.completed c rs).maps = s.maps := rfl
@[simp] theorem completed_freeList : (s.completed c rs).freeList = s.freeList := rfl
@[simp] theorem completed_ports : (s.completed c rs).ports = s.ports := rfl
@[simp] theorem completed_tags : (s.completed c rs).tags = s.tags := rfl
@[simp] theorem completed_transactions : (s.completed c rs).transactions = s.transactions := rfl
@[simp] theorem completed_captures : (s.completed c rs).captures = s.captures := rfl
@[simp] theorem completed_holds : (s.completed c rs).holds = s.holds := rfl
@[simp] theorem completed_slots : (s.completed c rs).slots = s.slots := rfl
@[simp] theorem completed_engine : (s.completed c rs).engine = s.engine := rfl
@[simp] theorem completed_channels : (s.completed c rs).channels = s.channels := rfl
@[simp] theorem completed_pool : (s.completed c rs).pool = s.pool := rfl
@[simp] theorem completed_powerCycle : (s.completed c rs).powerCycle = s.powerCycle := rfl
@[simp] theorem completed_nextTransaction : (s.completed c rs).nextTransaction = s.nextTransaction := rfl
@[simp] theorem completed_commandSlot : (s.completed c rs).commandSlot = s.commandSlot := rfl
@[simp] theorem completed_overrun : (s.completed c rs).overrun = s.overrun := rfl
@[simp] theorem completed_booting : (s.completed c rs).booting = s.booting := rfl
@[simp] theorem completed_attention : (s.completed c rs).attention = s.attention := rfl
@[simp] theorem completed_settings : (s.completed c rs).settings = s.settings := rfl
@[simp] theorem completed_bootStatus : (s.completed c rs).bootStatus = s.bootStatus := rfl
@[simp] theorem completed_maskInForce : (s.completed c rs).maskInForce = s.maskInForce := rfl
@[simp] theorem completed_window (x : WindowId) : (s.completed c rs).window x = s.window x := rfl
@[simp] theorem completed_map (x : NodeId) : (s.completed c rs).map x = s.map x := rfl
@[simp] theorem completed_port (x : NodeId) : (s.completed c rs).port x = s.port x := rfl
@[simp] theorem completed_hold (x : NodeId) : (s.completed c rs).hold x = s.hold x := rfl
@[simp] theorem completed_capture (x : NodeId) : (s.completed c rs).capture x = s.capture x := rfl
@[simp] theorem completed_slot (x : SlotId) : (s.completed c rs).slot x = s.slot x := rfl
@[simp] theorem completed_reasons (x : Fin 73) : (s.completed c rs).reasons x = s.reasons x := rfl
@[simp] theorem completed_channel (x : ChannelId) : (s.completed c rs).channel x = s.channel x := rfl
@[simp] theorem completed_tag (x : NodeId) (y : Tag) : (s.completed c rs).tag x y = s.tag x y := rfl
@[simp] theorem completed_link (x : NodeId) : (s.completed c rs).link x = s.link x := rfl

end completed

/-! ### What an updated record reads as -/

@[simp] theorem window_setWindow (w x : WindowId) (r : WindowRecord) :
    (s.setWindow w r).window x = if w = x then r else s.window x := Table.get_put ..

@[simp] theorem map_setMap (n x : NodeId) (m : List WindowId) :
    (s.setMap n m).map x = if n = x then m else s.map x := Table.get_put ..

@[simp] theorem port_setPort (n x : NodeId) (p : Port) :
    (s.setPort n p).port x = if n = x then p else s.port x := Table.get_put ..

theorem link_setPort (n x : NodeId) (p : Port) :
    (s.setPort n p).link x = if n = x then p.link else s.link x := by
  simp only [State.link, port_setPort]
  split <;> rfl

@[simp] theorem hold_setHold (n x : NodeId) (q : List HoldEntry) :
    (s.setHold n q).hold x = if n = x then q else s.hold x := Table.get_put ..

@[simp] theorem capture_setCapture (n x : NodeId) (c : Option Capture) :
    (s.setCapture n c).capture x = if n = x then c else s.capture x := Table.get_put ..

@[simp] theorem slot_setSlot (j x : SlotId) (t : Slot) :
    (s.setSlot j t).slot x = if j = x then t else s.slot x := Table.get_put ..

@[simp] theorem reasons_setReasons (i x : Fin 73) (r : BitVec 6) :
    (s.setReasons i r).reasons x = if i = x then r else s.reasons x := Table.get_put ..

@[simp] theorem channel_setChannel (c x : ChannelId) (q : List PoolOp) :
    (s.setChannel c q).channel x = if c = x then q else s.channel x := Table.get_put ..

@[simp] theorem engine_setPhase (p : EnginePhase) : (s.setPhase p).engine = { s.engine with phase := p } := rfl

@[simp] theorem tag_setTag (n x : NodeId) (t y : Tag) (e : Option TagEntry) :
    (s.setTag n t e).tag x y = if n = x ∧ t = y then e else s.tag x y := by
  simp only [State.tag, State.setTag, Table.get_put]
  by_cases h : n = x
  · subst h
    simp [Table.get_put]
  · simp [h]

theorem link_setLink (n x : NodeId) (l : LinkState) :
    (s.setLink n l).link x = if n = x then l else s.link x := link_setPort ..

/-! ### Updates of the same record, and of a record to itself -/

@[simp] theorem setWindow_setWindow (w : WindowId) (q r : WindowRecord) :
    (s.setWindow w q).setWindow w r = s.setWindow w r := by
  simp [State.setWindow]

@[simp] theorem setPort_setPort (n : NodeId) (p q : Port) : (s.setPort n p).setPort n q = s.setPort n q := by
  simp [State.setPort]

@[simp] theorem setSlot_setSlot (j : SlotId) (t u : Slot) : (s.setSlot j t).setSlot j u = s.setSlot j u := by
  simp [State.setSlot]

@[simp] theorem setHold_self (n : NodeId) : s.setHold n (s.hold n) = s := by
  simp [State.setHold, State.hold]

@[simp] theorem setPort_self (n : NodeId) : s.setPort n (s.port n) = s := by
  simp [State.setPort, State.port]

@[simp] theorem setWindow_self (w : WindowId) : s.setWindow w (s.window w) = s := by
  simp [State.setWindow, State.window]

end Sys2Proof.Machine
end

