-- ==== Sys2Proof/Laws/Requests.lean ====
section
/-! SUPPORT. The shared operations of the request path, the hold queues and the answers to nodes: what each leaves as it
was, said once, and what each makes a record read as. -/

namespace Sys2Proof.Machine

/-- A state with the records an answer to a node can touch set aside. -/
def State.beyondAnswers (s : State) : State :=
  { s with
    windows := State.reset.windows
    tags := State.reset.tags
    holds := State.reset.holds
    ports := State.reset.ports
    captures := State.reset.captures
    attention := State.reset.attention }

/-- A state with the records a request that begins execution can touch set aside too. -/
def State.beyondRequests (s : State) : State :=
  { s.beyondAnswers with
    transactions := State.reset.transactions
    nextTransaction := State.reset.nextTransaction
    channels := State.reset.channels }

/-- What stands beyond answers stands beyond requests. -/
theorem beyondRequests_of_answers {s t : State} (h : t.beyondAnswers = s.beyondAnswers) :
    t.beyondRequests = s.beyondRequests := by
  have : t.beyondAnswers.beyondRequests = s.beyondAnswers.beyondRequests := by rw [h]
  exact this

/-! ### Single updates -/

section Updates

variable (s : State)

@[simp] theorem setWindow_answers (w : WindowId) (r : WindowRecord) :
    (s.setWindow w r).beyondAnswers = s.beyondAnswers := rfl
@[simp] theorem setTag_answers (n : NodeId) (t : Tag) (e : Option TagEntry) :
    (s.setTag n t e).beyondAnswers = s.beyondAnswers := rfl
@[simp] theorem setHold_answers (n : NodeId) (q : List HoldEntry) :
    (s.setHold n q).beyondAnswers = s.beyondAnswers := rfl
@[simp] theorem setPort_answers (n : NodeId) (p : Port) : (s.setPort n p).beyondAnswers = s.beyondAnswers := rfl
@[simp] theorem setLink_answers (n : NodeId) (l : LinkState) : (s.setLink n l).beyondAnswers = s.beyondAnswers := rfl
@[simp] theorem setCapture_answers (n : NodeId) (c : Option Capture) :
    (s.setCapture n c).beyondAnswers = s.beyondAnswers := rfl
@[simp] theorem raise_answers (f : Flag) : (s.raise f).beyondAnswers = s.beyondAnswers := rfl

@[simp] theorem send_answers (n : NodeId) (m : Message) : (s.send n m).beyondAnswers = s.beyondAnswers := by
  unfold State.send
  split <;> simp

@[simp] theorem updateLive_answers (w : WindowId) (f : Live → Live) :
    (s.updateLive w f).beyondAnswers = s.beyondAnswers := by
  unfold State.updateLive
  split <;> simp

@[simp] theorem captureFault_answers (n : NodeId) (c : Capture) :
    (s.captureFault n c).beyondAnswers = s.beyondAnswers := by
  unfold State.captureFault
  split <;> simp

@[simp] theorem sendFault_answers (n : NodeId) (c : Capture) : (s.sendFault n c).beyondAnswers = s.beyondAnswers := by
  simp [State.sendFault]

@[simp] theorem faultTag_answers (n : NodeId) (t : Tag) (r : FaultReason) :
    (s.faultTag n t r).beyondAnswers = s.beyondAnswers := by
  unfold State.faultTag
  split <;> simp

@[simp] theorem lowerHeld_answers (w : WindowId) (n : NodeId) : (s.lowerHeld w n).beyondAnswers = s.beyondAnswers := by
  simp [State.lowerHeld]

@[simp] theorem raiseHeld_answers (w : WindowId) (n : NodeId) : (s.raiseHeld w n).beyondAnswers = s.beyondAnswers := by
  simp [State.raiseHeld]

@[simp] theorem raiseExecuting_answers (w : WindowId) (n : NodeId) :
    (s.raiseExecuting w n).beyondAnswers = s.beyondAnswers := by
  simp [State.raiseExecuting]

@[simp] theorem takeHold_answers (n : NodeId) (t : Tag) (q : Request) (f : Matched) (c : Cause) :
    (s.takeHold n t q f c).beyondAnswers = s.beyondAnswers := by
  simp [State.takeHold]

@[simp] theorem offerHold_answers (n : NodeId) (t : Tag) (q : Request) (f : Matched) (c : Cause) :
    (s.offerHold n t q f c).beyondAnswers = s.beyondAnswers := by
  unfold State.offerHold
  split <;> simp

@[simp] theorem faultEntry_answers (n : NodeId) (r : FaultReason) (e : HoldEntry) :
    (s.faultEntry n r e).beyondAnswers = s.beyondAnswers := by
  simp [State.faultEntry]

end Updates

theorem foldl_faultEntry_answers (n : NodeId) (r : FaultReason) (l : List HoldEntry) (s : State) :
    (l.foldl (State.faultEntry n r) s).beyondAnswers = s.beyondAnswers := by
  induction l generalizing s with
  | nil => rfl
  | cons e l ih => simp [ih]

/-- Entries made hopeless touch nothing but answers. -/
@[simp] theorem faultHeld_answers (s : State) (n : NodeId) (hit : HoldEntry → Bool) (r : FaultReason) :
    (s.faultHeld n hit r).beyondAnswers = s.beyondAnswers := by
  simp [State.faultHeld, foldl_faultEntry_answers]

@[simp] theorem endFenceDrain_answers (s : State) (n : NodeId) :
    (s.endFenceDrain n).beyondAnswers = s.beyondAnswers := by
  unfold State.endFenceDrain
  split <;> simp

/-- The entry to FENCING touches nothing but answers. -/
@[simp] theorem enterFencing_answers (s : State) (n : NodeId) : (s.enterFencing n).beyondAnswers = s.beyondAnswers := by
  simp [State.enterFencing]

/-! ### The beginning of execution -/

@[simp] theorem issue_requests (s : State) (op : PoolOp) : (s.issue op).beyondRequests = s.beyondRequests := rfl

theorem foldl_issueFor_requests (q : Request) (id : Nat) (ops : List TransactionOp) (s : State) :
    (ops.foldl (State.issueFor q id) s).beyondRequests = s.beyondRequests := by
  induction ops generalizing s with
  | nil => rfl
  | cons o ops ih => simp [ih, State.issueFor]

/-- A transaction that begins execution touches nothing beyond requests. -/
@[simp] theorem beginExecution_requests (s : State) (n : NodeId) (t : Tag) (q : Request) (f : Matched) :
    (s.beginExecution n t q f).beyondRequests = s.beyondRequests := by
  unfold State.beginExecution
  split
  · rfl
  · rw [beyondRequests_of_answers (raiseExecuting_answers ..), beyondRequests_of_answers (setTag_answers ..),
      foldl_issueFor_requests]
    rfl

/-- A request past its format check touches nothing beyond requests. -/
@[simp] theorem settle_requests (s : State) (n : NodeId) (t : Tag) (q : Request) :
    (s.settle n t q).beyondRequests = s.beyondRequests := by
  unfold State.settle
  split
  · exact beyondRequests_of_answers (by simp)
  · exact beyondRequests_of_answers (by simp)
  · simp

/-- The arrival of a request touches nothing beyond requests. -/
@[simp] theorem arrive_requests (s : State) (n : NodeId) (t : Tag) (q : Request) :
    (s.arrive n t q).beyondRequests = s.beyondRequests := by
  unfold State.arrive
  split
  · rfl
  · exact beyondRequests_of_answers (by simp)
  · exact beyondRequests_of_answers (by simp)
  · exact beyondRequests_of_answers (by simp)
  · split_ifs
    · exact beyondRequests_of_answers (by simp)
    · exact beyondRequests_of_answers (by simp)
    · simp

/-! ### Replay -/

theorem replayEntries_requests (n : NodeId) (rest kept : List HoldEntry) (s : State) :
    (replayEntries n kept rest s).state.beyondRequests = s.beyondRequests := by
  induction rest generalizing kept s with
  | nil => exact beyondRequests_of_answers (by simp [replayEntries])
  | cons e rest ih =>
    simp only [replayEntries]
    split
    · exact ih ..
    · split
      · simp only [ih]
        exact beyondRequests_of_answers (setTag_answers ..)
      · simp only [ih]
        exact beyondRequests_of_answers (by simp)
      · simp only [ih, beginExecution_requests]
        exact beyondRequests_of_answers (by simp)

/-- A replay pass touches nothing beyond requests. -/
@[simp] theorem replay_requests (s : State) (n : NodeId) : (s.replay n).state.beyondRequests = s.beyondRequests :=
  replayEntries_requests ..

theorem foldl_node_requests (w : WindowId) (l : List NodeId) (p : Pass) :
    (l.foldl (Pass.node w) p).state.beyondRequests = p.state.beyondRequests := by
  induction l generalizing p with
  | nil => rfl
  | cons n l ih =>
    rw [List.foldl_cons, ih]
    unfold Pass.node
    split <;> simp

/-- The passes for a window touch nothing beyond requests. -/
@[simp] theorem replayWindow_requests (s : State) (w : WindowId) :
    (s.replayWindow w).state.beyondRequests = s.beyondRequests :=
  foldl_node_requests ..

/-! ### What an answer makes a record read as -/

theorem window_updateLive (s : State) (w x : WindowId) (f : Live → Live) :
    (s.updateLive w f).window x =
      if w = x then { s.window x with life := (s.window x).life.map f } else s.window x := by
  unfold State.updateLive
  split <;> rename_i h
  · split <;> rename_i hx
    · subst hx
      rw [h]
      exact congrArg (WindowRecord.mk _) h
    · rfl
  · rename_i v
    rw [window_setWindow]
    split <;> rename_i hx
    · subst hx
      rw [h]
      rfl
    · rfl

@[simp] theorem reasons_raise (s : State) (f : Flag) (i : Fin 73) :
    (s.raise f).reasons i = if f.source = i then s.reasons i ||| f.bit else s.reasons i := by
  rw [State.raise, reasons_setReasons]
  split <;> rename_i h
  · rw [h]
  · rfl

/-- A flag just raised is pending. -/
theorem isPending_raise (s : State) (f : Flag) : (s.raise f).isPending f = true := by
  simp only [State.isPending, reasons_raise, if_true]
  cases f <;> simp only [Flag.bit] <;> generalize s.reasons _ = r <;> revert r <;> decide

/-- A pending flag stays pending through a raise (R156). -/
theorem isPending_raise_of (s : State) (f g : Flag) (h : s.isPending f = true) : (s.raise g).isPending f = true := by
  simp only [State.isPending, reasons_raise] at h ⊢
  split
  · generalize s.reasons f.source = r at h ⊢
    generalize g.bit = b
    cases f <;> simp only [Flag.bit] at h ⊢ <;> revert r b <;> decide
  · exact h

/-- A sent message stands at the tail of the outbound queue of a port that is not DOWN; nothing else of any port
changes (R58). -/
theorem port_send (s : State) (n x : NodeId) (m : Message) :
    (s.send n m).port x =
      if n = x ∧ s.link n ≠ .down then { s.port x with outbound := (s.port x).outbound ++ [m] } else s.port x := by
  unfold State.send
  split <;> rename_i h
  · simp [h]
  · rw [port_setPort]
    by_cases hx : n = x
    · subst hx
      simp [h]
    · simp [hx]

@[simp] theorem link_send (s : State) (n x : NodeId) (m : Message) : (s.send n m).link x = s.link x := by
  change ((s.send n m).port x).link = (s.port x).link
  rw [port_send, apply_ite Port.link]
  exact ite_self _

/-- A fault changes the fault capture record of its node alone, and only when that record is clear and the reason is
one that is captured (R93). -/
theorem capture_captureFault (s : State) (n x : NodeId) (c : Capture) :
    (s.captureFault n c).capture x =
      if n = x ∧ c.reason.captured = true ∧ s.capture n = none then some c else s.capture x := by
  unfold State.captureFault
  split <;> rename_i h
  · simp only [Bool.and_eq_true, Option.isNone_iff_eq_none] at h
    rw [State.raise, setReasons_capture, capture_setCapture]
    simp [h.1, h.2]
  · simp only [Bool.and_eq_true, Option.isNone_iff_eq_none] at h
    rw [if_neg fun hc => h hc.2]

/-! ### The shape of a window: what counts leave as it was -/

/-- A grant without its counts. -/
def GrantRecord.shape (g : GrantRecord) : GrantRecord := { g with executing := 0, held := 0 }

/-- A window in use without its counts. -/
def Live.shape (v : Live) : Live := { v with grants := v.grants.map GrantRecord.shape, executing := 0, held := 0 }

/-- The generation of a window and what it holds, without its counts. -/
def State.shape (s : State) (w : WindowId) : Byte × Option Live :=
  ((s.window w).generation, (s.window w).life.map Live.shape)

theorem shape_updateLive (s : State) (w x : WindowId) (f : Live → Live) (hf : ∀ v, (f v).shape = v.shape) :
    (s.updateLive w f).shape x = s.shape x := by
  simp only [State.shape, window_updateLive]
  split
  · cases (s.window x).life <;> simp [hf]
  · rfl

theorem shape_updateGrant (v : Live) (n : NodeId) (f : GrantRecord → GrantRecord) (hf : ∀ g, (f g).shape = g.shape) :
    (v.updateGrant n f).shape = v.shape := by
  simp only [Live.shape, Live.updateGrant, List.map_map]
  congr 1
  refine List.map_congr_left fun g _ => ?_
  simp only [Function.comp]
  split
  · exact hf g
  · rfl

/-- A change of counts keeps the shape of every window. -/
theorem shape_counts (s : State) (w x : WindowId) (n : NodeId) :
    (s.raiseExecuting w n).shape x = s.shape x ∧ (s.lowerExecuting w n).shape x = s.shape x ∧
      (s.raiseHeld w n).shape x = s.shape x ∧ (s.lowerHeld w n).shape x = s.shape x := by
  refine ⟨shape_updateLive _ _ _ _ fun v => ?_, shape_updateLive _ _ _ _ fun v => ?_,
    shape_updateLive _ _ _ _ fun v => ?_, shape_updateLive _ _ _ _ fun v => ?_⟩ <;>
  exact shape_updateGrant v n _ fun _ => rfl

/-- Windows that are the same have the same shape. -/
theorem shape_of_windows {s t : State} (h : t.windows = s.windows) (x : WindowId) : t.shape x = s.shape x := by
  simp only [State.shape, State.window, h]

theorem windows_send (s : State) (n : NodeId) (m : Message) : (s.send n m).windows = s.windows := by
  unfold State.send
  split <;> rfl

theorem windows_captureFault (s : State) (n : NodeId) (c : Capture) : (s.captureFault n c).windows = s.windows := by
  unfold State.captureFault
  split <;> rfl

theorem windows_faultTag (s : State) (n : NodeId) (t : Tag) (r : FaultReason) :
    (s.faultTag n t r).windows = s.windows := by
  unfold State.faultTag
  split
  · rfl
  · rw [State.sendFault, windows_captureFault, windows_send]
    rfl

theorem windows_issueFor (q : Request) (id : Nat) (ops : List TransactionOp) (s : State) :
    (ops.foldl (State.issueFor q id) s).windows = s.windows := by
  induction ops generalizing s with
  | nil => rfl
  | cons o ops ih => exact ih _

/-- The beginning of an execution changes counts and no window's shape (R84). -/
theorem shape_beginExecution (s : State) (n : NodeId) (t : Tag) (q : Request) (f : Matched) (x : WindowId) :
    (s.beginExecution n t q f).shape x = s.shape x := by
  unfold State.beginExecution
  split
  · rfl
  · rw [(shape_counts ..).1]
    exact shape_of_windows (windows_issueFor ..) x

theorem shape_replayEntries (n : NodeId) (rest kept : List HoldEntry) (s : State) (x : WindowId) :
    (replayEntries n kept rest s).state.shape x = s.shape x := by
  induction rest generalizing kept s with
  | nil => rfl
  | cons e rest ih =>
    simp only [replayEntries]
    split
    · exact ih ..
    · split
      · exact ih ..
      · simp only [ih]
        rw [shape_of_windows (windows_faultTag ..), (shape_counts ..).2.2.2]
      · simp only [ih]
        rw [shape_beginExecution, (shape_counts ..).2.2.2]

/-- A replay pass changes counts and no window's shape, so every lookup finds the same grant, rights and window state
throughout the pass (R99). -/
theorem shape_replay (s : State) (n : NodeId) (x : WindowId) : (s.replay n).state.shape x = s.shape x :=
  shape_replayEntries ..

/-- The passes for a window change no window's shape (R100). -/
theorem shape_replayWindow (s : State) (w x : WindowId) : (s.replayWindow w).state.shape x = s.shape x := by
  have h : ∀ (l : List NodeId) (p : Pass), (l.foldl (Pass.node w) p).state.shape x = p.state.shape x := by
    intro l
    induction l with
    | nil => exact fun _ => rfl
    | cons n l ih =>
      intro p
      rw [List.foldl_cons, ih]
      unfold Pass.node
      split
      · exact shape_replay ..
      · rfl
  exact h ..

end Sys2Proof.Machine
end

