-- ==== Sys2Proof/Laws/Withdrawals.lean ====
section
/-! SUPPORT. The operations of revocation and retirement: what each leaves as it was, and the slots
that report an outcome. -/

namespace Sys2Proof.Machine

/-- A state with the records a withdrawal of grants can touch set aside. -/
def State.beyondGrants (s : State) : State :=
  { s.beyondAnswers with maps := State.reset.maps, freeList := State.reset.freeList }

/-- What stands beyond answers stands beyond grants. -/
theorem beyondGrants_of_answers {s t : State} (h : t.beyondAnswers = s.beyondAnswers) :
    t.beyondGrants = s.beyondGrants := by
  have : t.beyondAnswers.beyondGrants = s.beyondAnswers.beyondGrants := by rw [h]
  exact this

@[simp] theorem setMap_grants (s : State) (n : NodeId) (m : List WindowId) :
    (s.setMap n m).beyondGrants = s.beyondGrants := rfl

@[simp] theorem raise_grants (s : State) (f : Flag) : (s.raise f).beyondGrants = s.beyondGrants := rfl

@[simp] theorem updateLive_grants (s : State) (w : WindowId) (f : Live → Live) :
    (s.updateLive w f).beyondGrants = s.beyondGrants := beyondGrants_of_answers (by simp)

@[simp] theorem completeRetirement_grants (s : State) (w : WindowId) (v : Live) :
    (s.completeRetirement w v).beyondGrants = s.beyondGrants := rfl

@[simp] theorem retireIfEmpty_grants (s : State) (w : WindowId) : (s.retireIfEmpty w).beyondGrants = s.beyondGrants := by
  unfold State.retireIfEmpty
  split
  · rfl
  · split <;> simp

@[simp] theorem removeGrant_grants (s : State) (w : WindowId) (n : NodeId) :
    (s.removeGrant w n).beyondGrants = s.beyondGrants := by
  simp [State.removeGrant]

@[simp] theorem removeIfDrained_grants (s : State) (w : WindowId) (n : NodeId) :
    (s.removeIfDrained w n).beyondGrants = s.beyondGrants := by
  unfold State.removeIfDrained
  split
  · rfl
  · split <;> simp

@[simp] theorem faultHeld_grants (s : State) (n : NodeId) (hit : HoldEntry → Bool) (r : FaultReason) :
    (s.faultHeld n hit r).beyondGrants = s.beyondGrants := beyondGrants_of_answers (by simp)

/-- An unlisting touches nothing beyond grants (R116). -/
@[simp] theorem unlist_grants (s : State) (w : WindowId) (n : NodeId) :
    (s.unlist w n).beyondGrants = s.beyondGrants := by
  simp [State.unlist, State.updateGrant]

/-- A notice touches nothing beyond grants (R114). -/
@[simp] theorem sendNotice_grants (s : State) (w : WindowId) (v : Live) (n : NodeId) (g : GrantRecord) :
    (s.sendNotice w v n g).beyondGrants = s.beyondGrants := by
  simp only [State.sendNotice, State.updateGrant, updateLive_grants]
  exact beyondGrants_of_answers (by simp)

@[simp] theorem withdraw_grants (s : State) (w : WindowId) (v : Live) (n : NodeId) (g : GrantRecord) :
    (s.withdraw w v n g).beyondGrants = s.beyondGrants := by
  unfold State.withdraw
  split <;> simp

/-- A forced removal touches nothing beyond grants (R118). -/
@[simp] theorem forceRemoval_grants (s : State) (w : WindowId) (n : NodeId) :
    (s.forceRemoval w n).beyondGrants = s.beyondGrants := by
  unfold State.forceRemoval State.policyFence
  split
  · rw [beyondGrants_of_answers (enterFencing_answers ..)]
    simp
  · simp

@[simp] theorem acknowledge_grants (s : State) (n : NodeId) (number : Byte) :
    (s.acknowledge n number).beyondGrants = s.beyondGrants := by
  unfold State.acknowledge
  split
  · rfl
  · split <;> simp

theorem foldl_unlist_grants (n : NodeId) (l : List (Byte × WindowId)) (s : State) :
    (l.foldl (fun s x => s.unlist x.2 n) s).beyondGrants = s.beyondGrants := by
  induction l generalizing s with
  | nil => rfl
  | cons x l ih => rw [List.foldl_cons, ih, unlist_grants]

@[simp] theorem unlistRevoking_grants (s : State) (n : NodeId) : (s.unlistRevoking n).beyondGrants = s.beyondGrants :=
  foldl_unlist_grants ..

@[simp] theorem retireGrant_grants (s : State) (w : WindowId) (n : NodeId) :
    (s.retireGrant w n).beyondGrants = s.beyondGrants := by
  unfold State.retireGrant
  split
  · rfl
  · split <;> simp

theorem foldl_retireGrant_grants (w : WindowId) (l : List NodeId) (s : State) :
    (l.foldl (State.retireGrant w) s).beyondGrants = s.beyondGrants := by
  induction l generalizing s with
  | nil => rfl
  | cons n l ih => rw [List.foldl_cons, ih, retireGrant_grants]

theorem foldl_faultHeld_grants (hit : HoldEntry → Bool) (r : FaultReason) (l : List NodeId) (s : State) :
    (l.foldl (fun s n => s.faultHeld n hit r) s).beyondGrants = s.beyondGrants := by
  induction l generalizing s with
  | nil => rfl
  | cons n l ih => rw [List.foldl_cons, ih, faultHeld_grants]

/-- A retirement touches nothing beyond grants (R125). -/
@[simp] theorem retire_grants (s : State) (w : WindowId) : (s.retire w).beyondGrants = s.beyondGrants := by
  simp only [State.retire, retireIfEmpty_grants, foldl_retireGrant_grants]
  rw [foldl_faultHeld_grants, updateLive_grants]

/-! ### The outcome slots of RETIRE (R127, R171) -/

/-- NONE and REMOVED have neither notice nor executing count. -/
theorem outcomeSlot_bare (code : Nat) : outcomeSlot code none none = slotOf (code + 256 * 255 + 65536 * 65535) := rfl

/-- NOTICE and PENDING have a notice number and no executing count. -/
theorem outcomeSlot_notice (code : Nat) (number : Byte) :
    outcomeSlot code (some number) none = slotOf (code + 256 * number.toNat + 65536 * 65535) := rfl

/-- DRAINING has an executing count and no notice number. -/
theorem outcomeSlot_executing (code k : Nat) :
    outcomeSlot code none (some k) = slotOf (code + 256 * 255 + 65536 * min k 65535) := rfl

end Sys2Proof.Machine
end

