-- ==== Sys2Proof/Laws/Jobs.lean ====
section
/-! SUPPORT. The operations of the Copy Engine and the ends of transactions: what each leaves as it was, and what
an abort, a drain and a failed mirror write do. -/

namespace Sys2Proof.Machine

/-- A state with the records of requests, of removals and of migration set aside. -/
def State.beyondJobs (s : State) : State :=
  { s.beyondRequests with
    freeList := State.reset.freeList
    slots := State.reset.slots
    engine := State.reset.engine }

/-- What stands beyond requests stands beyond jobs. -/
theorem beyondJobs_of_requests {s t : State} (h : t.beyondRequests = s.beyondRequests) :
    t.beyondJobs = s.beyondJobs := by
  have : t.beyondRequests.beyondJobs = s.beyondRequests.beyondJobs := by rw [h]
  exact this

/-- What stands beyond answers stands beyond jobs. -/
theorem beyondJobs_of_answers {s t : State} (h : t.beyondAnswers = s.beyondAnswers) : t.beyondJobs = s.beyondJobs :=
  beyondJobs_of_requests (beyondRequests_of_answers h)

section Turns

variable (s : State)

@[simp] theorem setSlot_jobs (j : SlotId) (t : Slot) : (s.setSlot j t).beyondJobs = s.beyondJobs := rfl
@[simp] theorem setPhase_jobs (p : EnginePhase) : (s.setPhase p).beyondJobs = s.beyondJobs := rfl
@[simp] theorem release_jobs (e : Extent) : (s.release e).beyondJobs = s.beyondJobs := rfl
@[simp] theorem raise_jobs (f : Flag) : (s.raise f).beyondJobs = s.beyondJobs := rfl
@[simp] theorem issueCopyRead_jobs (j : SlotId) (job : Job) : (s.issueCopyRead j job).beyondJobs = s.beyondJobs := rfl
@[simp] theorem issueCopyWrite_jobs (j : SlotId) (job : Job) (data : List Byte) :
    (s.issueCopyWrite j job data).beyondJobs = s.beyondJobs := rfl

@[simp] theorem updateLive_jobs (w : WindowId) (f : Live → Live) : (s.updateLive w f).beyondJobs = s.beyondJobs :=
  beyondJobs_of_answers (by simp)

@[simp] theorem replayWindow_jobs (w : WindowId) : (s.replayWindow w).state.beyondJobs = s.beyondJobs :=
  beyondJobs_of_requests (by simp)

@[simp] theorem readOrWait_jobs (j : SlotId) (job : Job) : (s.readOrWait j job).beyondJobs = s.beyondJobs := by
  unfold State.readOrWait
  split <;> simp

/-- A turn's beginning touches nothing beyond jobs (R133). -/
@[simp] theorem startTurn_jobs : s.startTurn.beyondJobs = s.beyondJobs := by
  unfold State.startTurn
  split
  · rfl
  · split
    · rw [readOrWait_jobs]
      rfl
    all_goals rfl

@[simp] theorem endTurn_jobs : s.endTurn.beyondJobs = s.beyondJobs := by
  unfold State.endTurn
  split <;> simp

@[simp] theorem finish_jobs (j : SlotId) (job : Job) (o : JobOutcome) (e : Extent) (f : Flag) :
    (s.finish j job o e f).beyondJobs = s.beyondJobs := by
  simp [State.finish]

/-- The look at a drain touches nothing beyond jobs (R142, R145). -/
@[simp] theorem lookDrain_jobs (j : SlotId) : (s.lookDrain j).beyondJobs = s.beyondJobs := by
  unfold State.lookDrain
  split
  · split <;> simp
  · split <;> simp
  all_goals rfl

@[simp] theorem endWaiting_jobs (j : SlotId) : (s.endWaiting j).beyondJobs = s.beyondJobs := by
  unfold State.endWaiting
  split <;> simp

/-- The entry to ABORTING touches nothing beyond jobs (R144). -/
@[simp] theorem enterAborting_jobs (j : SlotId) (r : AbortReason) :
    (s.enterAborting j r).beyondJobs = s.beyondJobs := by
  unfold State.enterAborting
  split
  · simp only [lookDrain_jobs]
    split <;> simp
  all_goals rfl

@[simp] theorem switch_jobs (j : SlotId) (job : Job) : (s.switch j job).beyondJobs = s.beyondJobs := by
  simp [State.switch]

@[simp] theorem afterChunk_jobs (j : SlotId) (job : Job) : (s.afterChunk j job).beyondJobs = s.beyondJobs := by
  unfold State.afterChunk
  split <;> simp

@[simp] theorem copyFailed_jobs (j : SlotId) (r : AbortReason) : (s.copyFailed j r).beyondJobs = s.beyondJobs := by
  simp [State.copyFailed]

@[simp] theorem endAbortedTurn_jobs (j : SlotId) : (s.endAbortedTurn j).beyondJobs = s.beyondJobs := by
  simp [State.endAbortedTurn]

end Turns

/-- The end of a copy read touches, beside the pool, nothing beyond jobs (R135). -/
@[simp] theorem copyReadEnded_jobs (j : SlotId) (r : OpEnd) :
    (State.copyReadEnded j r).beyondJobs = r.state.beyondJobs := by
  unfold State.copyReadEnded
  split
  · split <;> simp
  all_goals simp

/-- The end of a copy write touches, beside the pool, nothing beyond jobs (R137). -/
@[simp] theorem copyWriteEnded_jobs (j : SlotId) (r : OpEnd) :
    (State.copyWriteEnded j r).beyondJobs = r.state.beyondJobs := by
  unfold State.copyWriteEnded
  split
  · split <;> simp
  all_goals simp

/-! ### Drains and aborts -/

section Aborts

variable {s : State} {j : SlotId} {job : Job}

/-- A window that is MIGRATING under a slot is ACTIVE when the slot reaches FINISHED (R15). -/
theorem endMigration_migrating {v : Live} (h : v.state = .migrating j) : v.endMigration j = { v with state := .active } := by
  simp [Live.endMigration, h]

/-- The drain of the target goes on while something touches it or a copy operation of the slot is in progress (R145). -/
theorem lookDrain_aborting_touched {r : AbortReason} (hs : s.slot j = .aborting job r)
    (h : s.touching job.target ≠ 0 ∨ s.engine.phase.copiesFor j = true) : s.lookDrain j = s := by
  simp only [State.lookDrain, hs]
  grind

/-- The drain of the target ends when nothing touches it and no copy operation of the slot is in progress (R145). -/
theorem lookDrain_aborting_free {r : AbortReason} (hs : s.slot j = .aborting job r) (h : s.touching job.target = 0)
    (hp : s.engine.phase.copiesFor j = false) :
    s.lookDrain j = s.finish j job (.aborted r) job.target (.jobAborted j) := by
  simp [State.lookDrain, hs, h, hp]

/-- The drain of the old extent goes on while something touches it (R142). -/
theorem lookDrain_drainingOld_touched (hs : s.slot j = .drainingOld job) (h : s.touching job.source ≠ 0) :
    s.lookDrain j = s := by
  simp [State.lookDrain, hs, h]

/-- The drain of the old extent ends when nothing touches it (R142). -/
theorem lookDrain_drainingOld_free (hs : s.slot j = .drainingOld job) (h : s.touching job.source = 0) :
    s.lookDrain j = s.finish j job .done job.source (.jobDone j) := by
  simp [State.lookDrain, hs, h]

/-- Only a slot in COPYING enters ABORTING (R143, R140). -/
theorem enterAborting_of_not_copying (h : (s.slot j).isCopying = false) (r : AbortReason) : s.enterAborting j r = s := by
  unfold State.enterAborting
  split <;> simp_all [Slot.isCopying]

/-- What the entry to ABORTING does, in the order of R144. -/
theorem enterAborting_copying {mark : Bool} (h : s.slot j = .copying job mark) (r : AbortReason) :
    s.enterAborting j r =
      (if mark then (((s.setSlot j (.aborting job r)).endWaiting j).replayWindow job.window).state
        else (s.setSlot j (.aborting job r)).endWaiting j).lookDrain j := by
  simp only [State.enterAborting, h]

/-- A mirror write that failed aborts the job its window is MIGRATING under (R140). -/
theorem mirrorFailed_migrating {w : WindowId} {v : Live} (hw : (s.window w).life = some v)
    (h : v.state = .migrating j) : s.mirrorFailed w = s.enterAborting j .mirrorWriteError := by
  simp only [State.mirrorFailed, hw, h]

/-- A window that no job moves has no job to abort. -/
theorem mirrorFailed_of_not_migrating {w : WindowId} {v : Live} (hw : (s.window w).life = some v)
    (h : ∀ j, v.state ≠ .migrating j) : s.mirrorFailed w = s := by
  unfold State.mirrorFailed
  simp only [hw]
  split <;> simp_all

end Aborts

/-! ### The end of a transaction -/

/-- The outcome of an operation can always be noted, and in one way. -/
theorem noted_iff (s : State) (id : Nat) (u : Transaction) (role : Role) (r : OpEnd) (a : State) :
    s.noted id u role r a ↔
      a = if r.failed = true ∧ u.mirrored = true ∧ role = .target then
          State.mirrorFailed { r.state with transactions := s.transactions.map fun y => if y.id = id then u else y }
            u.window
        else { r.state with transactions := s.transactions.map fun y => if y.id = id then u else y } := by
  unfold State.noted
  split <;> simp_all

/-- Whether a transaction is mirrored does not change with its outcomes. -/
@[simp] theorem mirrored_afterOp (t : Transaction) (role : Role) (failed : Bool) (bytes : List Byte) :
    (t.afterOp role failed bytes).mirrored = t.mirrored := by
  simp [Transaction.mirrored, Transaction.afterOp]

/-- What the end of an operation does once its outcome has been noted (R86). -/
theorem operationEnded_of_noted {s a : State} {x : Transaction} {role : Role} {r : OpEnd}
    (hr : r.state.transactions = s.transactions)
    (h : s.noted x.id (x.afterOp role r.failed r.bytes) role r a) :
    r.state.operationEnded x role r =
      if (x.afterOp role r.failed r.bytes).ops.any fun o => o.outcome == .pending then a
      else a.endTransaction (x.afterOp role r.failed r.bytes) := by
  rw [noted_iff, ← hr, mirrored_afterOp] at h
  simp only [State.operationEnded, Bool.and_eq_true, beq_iff_eq, and_assoc]
  rw [h]
  rfl

section Ends

variable (s : State)

@[simp] theorem resumeWaiting_jobs (j : SlotId) : (s.resumeWaiting j).beyondJobs = s.beyondJobs := by
  unfold State.resumeWaiting
  split
  · split
    · simp
    all_goals rfl
  · rfl

@[simp] theorem tellEngine_jobs (w : WindowId) : (s.tellEngine w).beyondJobs = s.beyondJobs := by
  unfold State.tellEngine
  split
  · rfl
  · split
    · simp
    all_goals rfl

@[simp] theorem tellDirectory_jobs (w : WindowId) : (s.tellDirectory w).beyondJobs = s.beyondJobs := by
  unfold State.tellDirectory
  split
  · rfl
  · split <;> simp

@[simp] theorem retireIfEmpty_jobs (w : WindowId) : (s.retireIfEmpty w).beyondJobs = s.beyondJobs := by
  unfold State.retireIfEmpty
  split
  · rfl
  · split <;> rfl

@[simp] theorem removeIfDrained_jobs (w : WindowId) (n : NodeId) :
    (s.removeIfDrained w n).beyondJobs = s.beyondJobs := by
  unfold State.removeIfDrained
  split
  · rfl
  · split
    · simp [State.removeGrant]
    · rfl

@[simp] theorem completeTag_jobs (t : Transaction) (tag : Tag) : (s.completeTag t tag).beyondJobs = s.beyondJobs := by
  unfold State.completeTag
  split <;> exact beyondJobs_of_answers (by simp)

/-- The end of a transaction touches nothing beyond jobs (R87, R88). -/
@[simp] theorem endTransaction_jobs (t : Transaction) : (s.endTransaction t).beyondJobs = s.beyondJobs := by
  simp only [State.endTransaction, tellEngine_jobs]
  rw [beyondJobs_of_answers (endFenceDrain_answers ..), removeIfDrained_jobs, tellDirectory_jobs, State.lowerExecuting,
    updateLive_jobs]
  split <;> first | rfl | exact completeTag_jobs ..

@[simp] theorem mirrorFailed_jobs (w : WindowId) : (s.mirrorFailed w).beyondJobs = s.beyondJobs := by
  unfold State.mirrorFailed
  split
  · rfl
  · split
    · simp
    all_goals rfl

/-- The end of an operation touches, beside the pool, nothing beyond jobs (R86). -/
@[simp] theorem operationEnded_jobs (t : Transaction) (role : Role) (r : OpEnd) :
    (s.operationEnded t role r).beyondJobs = s.beyondJobs := by
  simp only [State.operationEnded]
  split <;> split <;> (try simp only [mirrorFailed_jobs, endTransaction_jobs]) <;> rfl

end Ends

end Sys2Proof.Machine
end

