-- ==== Sys2Proof/Laws/Pool.lean ====
section
/-! SUPPORT. The pool's operations keep its lists canonical, and what a byte holds after each. -/

namespace Sys2Proof.Machine

/-! ### Cells -/

theorem mem_cellsAt {c : Host.Cell} {a : Nat} {data : List Byte} :
    c ∈ cellsAt a data ↔ a ≤ c.1 ∧ data[c.1 - a]? = some c.2 := by
  induction data generalizing a with
  | nil => simp [cellsAt]
  | cons b bs ih =>
    obtain ⟨x, y⟩ := c
    simp only [cellsAt, List.mem_cons, ih, Prod.mk.injEq]
    by_cases h : x = a
    · subst h
      constructor
      · rintro (⟨-, rfl⟩ | ⟨h1, -⟩)
        · simp
        · omega
      · rintro ⟨-, h2⟩
        simp at h2
        exact .inl ⟨rfl, h2.symm⟩
    · constructor
      · rintro (⟨h1, -⟩ | ⟨h1, h2⟩)
        · exact absurd h1 h
        · refine ⟨by omega, ?_⟩
          rw [show x - a = (x - (a + 1)) + 1 by omega]
          simpa using h2
      · rintro ⟨h1, h2⟩
        refine .inr ⟨by omega, ?_⟩
        rw [show x - a = (x - (a + 1)) + 1 by omega] at h2
        simpa using h2

theorem lt_of_mem_cellsAt {c : Host.Cell} {a : Nat} {data : List Byte} (h : c ∈ cellsAt a data) :
    a ≤ c.1 ∧ c.1 < a + data.length := by
  obtain ⟨h1, h2⟩ := mem_cellsAt.1 h
  obtain ⟨h3, -⟩ := List.getElem?_eq_some_iff.1 h2
  omega

theorem cellsAt_rises (a : Nat) (data : List Byte) : (cellsAt a data).Pairwise fun c d => c.1 < d.1 := by
  induction data generalizing a with
  | nil => simp [cellsAt]
  | cons b bs ih =>
    refine List.pairwise_cons.2 ⟨fun c hc => ?_, ih _⟩
    exact (lt_of_mem_cellsAt hc).1

/-! ### The canonical form -/

theorem wf_iff {p : Pool} :
    p.wf = true ↔ (p.values.Pairwise fun c d => c.1 < d.1) ∧ p.marks.Pairwise fun m n => m < n := by
  simp [Pool.wf]

theorem reset_wf : State.reset.pool.wf = true := by decide

theorem store_wf {p : Pool} (h : p.wf = true) (a : Nat) (data : List Byte) : (p.store a data).wf = true := by
  obtain ⟨hv, hm⟩ := wf_iff.1 h
  refine wf_iff.2 ⟨?_, hm.filter _⟩
  refine List.pairwise_append.2 ⟨List.pairwise_append.2 ⟨hv.filter _, cellsAt_rises a data, ?_⟩, hv.filter _, ?_⟩
  · intro c hc d hd
    have h1 : c.1 < a := by simpa using (List.mem_filter.1 hc).2
    have := (lt_of_mem_cellsAt hd).1
    omega
  · intro c hc d hd
    have h1 : a + data.length ≤ d.1 := by simpa using (List.mem_filter.1 hd).2
    rcases List.mem_append.1 hc with hc | hc
    · have h2 : c.1 < a := by simpa using (List.mem_filter.1 hc).2
      omega
    · have := (lt_of_mem_cellsAt hc).2
      omega

theorem markRange_rises {marks : List Nat} (h : marks.Pairwise fun m n => m < n) (a len : Nat) :
    (markRange marks a len).Pairwise fun m n => m < n := by
  refine List.pairwise_append.2 ⟨List.pairwise_append.2 ⟨h.filter _, List.pairwise_lt_range', ?_⟩, h.filter _, ?_⟩
  · intro m hm n hn
    have h1 : m < a := by simpa using (List.mem_filter.1 hm).2
    have h2 := (List.mem_range'_1.1 hn).1
    omega
  · intro m hm n hn
    have h1 : a + len ≤ n := by simpa using (List.mem_filter.1 hn).2
    rcases List.mem_append.1 hm with hm | hm
    · have h2 : m < a := by simpa using (List.mem_filter.1 hm).2
      omega
    · have h2 := (List.mem_range'_1.1 hm).2
      omega

theorem spoilRead_wf {p : Pool} (h : p.wf = true) (a len : Nat) : (p.spoilRead a len).wf = true :=
  wf_iff.2 ⟨(wf_iff.1 h).1, markRange_rises (wf_iff.1 h).2 a len⟩

theorem spoilWrite_wf {p : Pool} (h : p.wf = true) (a len : Nat) : (p.spoilWrite a len).wf = true := by
  obtain ⟨hv, hm⟩ := wf_iff.1 h
  refine wf_iff.2 ⟨List.pairwise_append.2 ⟨hv.filter _, hv.filter _, ?_⟩, markRange_rises hm a len⟩
  intro c hc d hd
  have h1 : c.1 < a := by simpa using (List.mem_filter.1 hc).2
  have h2 : a + len ≤ d.1 := by simpa using (List.mem_filter.1 hd).2
  omega

/-- The end of an operation keeps the canonical form. -/
theorem afterEnd_wf {p : Pool} (h : p.wf = true) (op : PoolOp) (failed : Bool) : (p.afterEnd op failed).wf = true := by
  unfold Pool.afterEnd
  split
  · exact h
  · exact spoilRead_wf h ..
  · exact store_wf h ..
  · exact spoilWrite_wf h ..

/-- An abandoned operation keeps the canonical form. -/
theorem abandon_wf {p : Pool} (h : p.wf = true) (op : PoolOp) : (p.abandon op).wf = true := by
  unfold Pool.abandon
  split
  · exact h
  · exact spoilWrite_wf h ..

theorem foldl_abandon_wf {p : Pool} (h : p.wf = true) (ops : List PoolOp) : (ops.foldl Pool.abandon p).wf = true := by
  induction ops generalizing p with
  | nil => exact h
  | cons op ops ih => exact ih (abandon_wf h op)

/-! ### Values and marks -/

theorem find_cellsBelow {a x : Nat} (l : List Host.Cell) :
    (cellsBelow a l).find? (fun c => c.1 == x) = if x < a then l.find? (fun c => c.1 == x) else none := by
  rw [cellsBelow, List.find?_filter]
  split <;> rename_i h
  · congr 1
    funext c
    by_cases hc : c.1 = x <;> simp [hc, h]
  · refine List.find?_eq_none.2 fun c _ => ?_
    by_cases hc : c.1 = x <;> simp [hc, h]

theorem find_cellsFrom {a x : Nat} (l : List Host.Cell) :
    (cellsFrom a l).find? (fun c => c.1 == x) = if a ≤ x then l.find? (fun c => c.1 == x) else none := by
  rw [cellsFrom, List.find?_filter]
  split <;> rename_i h
  · congr 1
    funext c
    by_cases hc : c.1 = x <;> simp [hc, h]
  · refine List.find?_eq_none.2 fun c _ => ?_
    by_cases hc : c.1 = x <;> simp [hc, h]

theorem find_cellsAt {a x : Nat} (data : List Byte) :
    (cellsAt a data).find? (fun c => c.1 == x) = if a ≤ x then data[x - a]?.map fun b => (x, b) else none := by
  induction data generalizing a with
  | nil => simp [cellsAt]
  | cons b bs ih =>
    simp only [cellsAt, List.find?_cons, ih]
    by_cases h : a = x
    · subst h
      simp
    · by_cases h2 : a ≤ x
      · rw [show x - a = (x - (a + 1)) + 1 by omega]
        simp [beq_false_of_ne h, h2, show a + 1 ≤ x by omega]
      · simp [beq_false_of_ne h, h2, show ¬a + 1 ≤ x by omega]

/-- A byte that a store covers holds the stored byte. -/
theorem value_store_inside {p : Pool} {a i : Nat} {data : List Byte} {b : Byte} (hb : data[i]? = some b)
    (cycle : Nat) : (p.store a data).value cycle (a + i) = b := by
  have hi : i < data.length := (List.getElem?_eq_some_iff.1 hb).1
  simp [Pool.value, Pool.store, List.find?_append, find_cellsBelow, find_cellsFrom, find_cellsAt, hb]

/-- A byte outside a store keeps its value. -/
theorem value_store_outside {p : Pool} {a x : Nat} {data : List Byte} (hx : x < a ∨ a + data.length ≤ x)
    (cycle : Nat) : (p.store a data).value cycle x = p.value cycle x := by
  simp only [Pool.value, Pool.store, List.find?_append, find_cellsBelow, find_cellsFrom, find_cellsAt]
  rcases hx with hx | hx
  · simp [hx, show ¬a ≤ x by omega, show ¬a + data.length ≤ x by omega]
  · simp [hx, show a ≤ x by omega, show ¬x < a by omega, List.getElem?_eq_none (show data.length ≤ x - a by omega)]

/-- A byte outside a failed or abandoned WRITE keeps its value. -/
theorem value_spoilWrite_outside {p : Pool} {a len x : Nat} (hx : x < a ∨ a + len ≤ x) (cycle : Nat) :
    (p.spoilWrite a len).value cycle x = p.value cycle x := by
  simp only [Pool.value, Pool.spoilWrite, List.find?_append, find_cellsBelow, find_cellsFrom]
  rcases hx with hx | hx
  · simp [hx, show ¬a + len ≤ x by omega]
  · by_cases h : x < a
    · omega
    · simp [hx, h]

theorem mem_markRange {marks : List Nat} {a len x : Nat} :
    x ∈ markRange marks a len ↔ x ∈ marks ∨ (a ≤ x ∧ x < a + len) := by
  simp only [markRange, List.mem_append, List.mem_filter, decide_eq_true_eq, List.mem_range'_1]
  constructor
  · rintro ((h | h) | h)
    · exact .inl h.1
    · exact .inr h
    · exact .inl h.1
  · rintro (h | h)
    · by_cases h1 : x < a
      · exact .inl (.inl ⟨h, h1⟩)
      · by_cases h2 : a + len ≤ x
        · exact .inr ⟨h, h2⟩
        · exact .inl (.inr ⟨by omega, by omega⟩)
    · exact .inl (.inr h)

@[simp] theorem marked_spoilRead (p : Pool) (a len x : Nat) :
    (p.spoilRead a len).marked x = true ↔ p.marked x = true ∨ (a ≤ x ∧ x < a + len) := by
  simp [Pool.marked, Pool.spoilRead, mem_markRange]

@[simp] theorem marked_spoilWrite (p : Pool) (a len x : Nat) :
    (p.spoilWrite a len).marked x = true ↔ p.marked x = true ∨ (a ≤ x ∧ x < a + len) := by
  simp [Pool.marked, Pool.spoilWrite, mem_markRange]

@[simp] theorem marked_store (p : Pool) (a x : Nat) (data : List Byte) :
    (p.store a data).marked x = true ↔ p.marked x = true ∧ (x < a ∨ a + data.length ≤ x) := by
  simp [Pool.marked, Pool.store]

@[simp] theorem value_spoilRead (p : Pool) (a len cycle x : Nat) :
    (p.spoilRead a len).value cycle x = p.value cycle x := rfl

end Sys2Proof.Machine
end

