-- ==== Sys2Proof/WellFormed.lean ====
section
/-! DEFINITION. Which terms of Instr stand for the event their row names. An ill-formed term is another row's event
written under this row's name; the machine takes it as the port would (log 20). -/

namespace Sys2Proof

/-- The check of one command's operands. -/
def Instr.wellFormed : Instr → Bool
  | .badCommand code => (Cmd.ofCode code).isNone
  | .paramWrite slot _ => slot.val != 0 && slot.val != 2
  | .clearOverrun value => value.getLsbD 0 && !value.getLsbD 7
  | .clearCmdDone value => value.getLsbD 1 && !value.getLsbD 7
  | .softReset value => value.getLsbD 7
  | .write _ tag addr len data => (Inbound.write tag addr len data).wellFormed
  | .malformedMessage _ bytes => (Inbound.parse bytes).isNone
  | .nop | .identify | .setTimers | .setPolicy | .getAttention | .ackAttention | .createWindow | .queryWindow
  | .queryFree | .grant | .setRights | .queryGrant | .lookup | .admitNode | .fenceNode | .readFaultCapture
  | .releaseFaultCapture | .suspend | .resume | .revoke | .retire | .migrate | .abortJob | .queryJob
  | .deviceReset _ | .resetRelease _ _ | .bootInstall _ | .linkUp _ | .linkDown _ | .hello _ _ | .read _ _ _ _
  | .revokeAck _ _ | .handToLinkLayer _ | .transactionOperationEnd _ _ | .holdExpiry _ | .revokeDeadline _ _
  | .copyReadEnd _ | .copyWriteEnd _ | .pacingEnd | .commandCompletion => true

end Sys2Proof
end

