-- ==== Sys2Proof/Tests/Slice0.lean ====
section
/-! SUPPORT. Tests of the model's own: the checks of WellFormed, worked examples of the spec in single steps, and for
every statement with hypotheses a state and operands that meet them. -/

namespace Sys2Proof.Tests

open Sys2Proof.Machine

/-! ### Well-formed terms, and one the check refuses for each check -/

theorem test_badCommand_ok : (Instr.badCommand 0x63#32).wellFormed = true := by decide
theorem test_badCommand_refused : (Instr.badCommand 0x62#32).wellFormed = false := by decide
theorem test_paramWrite_ok : (Instr.paramWrite 3 9#32).wellFormed = true := by decide
theorem test_paramWrite_control_refused : (Instr.paramWrite 0 9#32).wellFormed = false := by decide
theorem test_paramWrite_command_refused : (Instr.paramWrite 2 9#32).wellFormed = false := by decide
theorem test_clearOverrun_ok : (Instr.clearOverrun 0x03#32).wellFormed = true := by decide
theorem test_clearOverrun_bit_refused : (Instr.clearOverrun 0x02#32).wellFormed = false := by decide
theorem test_clearOverrun_reset_refused : (Instr.clearOverrun 0x81#32).wellFormed = false := by decide
theorem test_clearCmdDone_ok : (Instr.clearCmdDone 0x02#32).wellFormed = true := by decide
theorem test_clearCmdDone_bit_refused : (Instr.clearCmdDone 0x01#32).wellFormed = false := by decide
theorem test_clearCmdDone_reset_refused : (Instr.clearCmdDone 0x82#32).wellFormed = false := by decide
theorem test_softReset_ok : (Instr.softReset 0x83#32).wellFormed = true := by decide
theorem test_softReset_refused : (Instr.softReset 0x03#32).wellFormed = false := by decide
theorem test_write_ok : (Instr.write 0 0 0 2 [1, 2]).wellFormed = true := by decide
theorem test_write_refused : (Instr.write 0 0 0 2 [1]).wellFormed = false := by decide
theorem test_malformed_ok : (Instr.malformedMessage 0 [5, 0, 0, 0]).wellFormed = true := by decide
theorem test_malformed_refused : (Instr.malformedMessage 0 [4, 9, 0, 0]).wellFormed = false := by decide

/-! ### Message bytes, written out from section 11.2 -/

theorem test_parse_hello :
    Inbound.parse [0x01, 0, 0, 0, 0x78, 0x56, 0x34, 0x12] = some (.hello 0x12345678#32) := by decide
theorem test_parse_read :
    Inbound.parse [0x02, 0x07, 0x40, 0, 0x00, 0x10, 0x20, 0x40, 0, 0, 0, 0] =
      some (.read 7 1075843072#40 64#16) := by decide
theorem test_parse_write :
    Inbound.parse [0x03, 0x1F, 2, 0, 0, 0, 0, 0, 0x80, 0, 0, 0, 0xAA, 0xBB] =
      some (.write 31 0x8000000000#40 2#16 [0xAA, 0xBB]) := by decide
theorem test_parse_revokeAck : Inbound.parse [0x04, 17, 0, 0] = some (.revokeAck 17) := by decide
theorem test_parse_high_tag : Inbound.parse [0x02, 0x20, 4, 0, 0, 0, 0, 0, 0, 0, 0, 0] = none := by decide
theorem test_parse_short_write : Inbound.parse [0x03, 1, 2, 0, 0, 0, 0, 0, 0, 0, 0, 0, 7] = none := by decide
theorem test_encode_notice :
    (Message.revokeNotice 17 0x80000000 2).encode = [0x83, 17, 2, 0, 0, 0, 0, 0x80, 0, 0, 0, 0] := by decide

/-! ### The Free Extent List of section 2.5 -/

theorem test_list_step_2 :
    allocateExplicit ⟨1024, 512⟩ [⟨256, 1792⟩] = some [⟨256, 768⟩, ⟨1536, 512⟩] := by decide
theorem test_list_step_3 :
    firstFit 128 [⟨256, 768⟩, ⟨1536, 512⟩] = some (⟨256, 128⟩, [⟨384, 640⟩, ⟨1536, 512⟩]) := by decide
theorem test_list_step_5 :
    release ⟨256, 128⟩ [⟨448, 576⟩, ⟨1536, 512⟩] = [⟨256, 128⟩, ⟨448, 576⟩, ⟨1536, 512⟩] := by decide
theorem test_list_step_6 : firstFit 600 [⟨256, 128⟩, ⟨448, 576⟩, ⟨1536, 512⟩] = none := by decide
theorem test_list_step_9 :
    release ⟨384, 64⟩ [⟨320, 64⟩, ⟨448, 576⟩, ⟨1536, 512⟩] = [⟨320, 704⟩, ⟨1536, 512⟩] := by decide
theorem test_list_step_11 : release ⟨1024, 512⟩ [⟨920, 104⟩, ⟨1536, 512⟩] = [⟨920, 1128⟩] := by decide
theorem test_list_figures :
    totalFree [⟨256, 768⟩, ⟨1536, 512⟩] = 1280 ∧ largestFree [⟨256, 768⟩, ⟨1536, 512⟩] = 768 := by decide

/-! ### Small states -/

/-- The part after a disabled boot load, with the smallest pool. -/
def ready : State := { State.reset with resetHeld := false, booting := false }

/-- A command taken, with its parameters. -/
def taking (c : Cmd) (ps : List Word) (s : State) : State := { s with taken := some ⟨c.code, resultSlots ps⟩ }

/-- Window 0 on granule 0, in a state, with its grants and counts. -/
def live (st : LiveState) (gs : List GrantRecord) (executing held : Nat) : Live :=
  { state := st, home := ⟨0, 1⟩, grants := gs, executing := executing, held := held, quietPending := false }

/-- Node 0's grant of window 0, at node base 0. -/
def granted (st : GrantState) (executing held : Nat) : GrantRecord :=
  { node := 0, base := 0, rights := .readWrite, state := st, executing := executing, held := held }

/-- Window 0 in use and in node 0's map; node 0 ADMITTED. -/
def inUse (v : Live) : State :=
  { ready with
    windows := Table.put ready.windows 0 { generation := 0, life := some v }
    freeList := [⟨1, 2047⟩]
    maps := Table.put ready.maps 0 [0]
    ports := Table.put ready.ports 0 { Port.reset with link := .admitted, identity := some 7 } }

/-- Window 0 ACTIVE and granted to node 0. -/
def shared : State := inUse (live .active [granted .listed 0 0] 0 0)

/-- A link state of node 0. -/
def linked (l : LinkState) (s : State) : State := s.setLink 0 l

/-- A job that moves window 0 from granule 0 to granule 1. -/
def job (cursor : Nat) : Job := { window := 0, generation := 0, source := ⟨0, 1⟩, target := ⟨1, 1⟩, cursor := cursor }

/-- Window 0 MIGRATING under slot 0, whose slot, engine phase and channel 0 are given. -/
def moving (t : Slot) (phase : EnginePhase) (q : List PoolOp) : State :=
  { inUse (live (.migrating 0) [granted .listed 0 0] 0 0) with
    freeList := [⟨2, 2046⟩]
    slots := Table.put ready.slots 0 t
    engine := { phase := phase, last := 0 }
    channels := Table.put ready.channels 0 q }

/-- A held request of node 0 under tag 3. -/
def entry (c : Cause) (expiry : Nat) : HoldEntry := { tag := 3, window := 0, chunk := 0, cause := c, expiry := expiry }

/-- Window 0 SUSPENDED with one READ of node 0 held. -/
def holding : State :=
  { inUse (live .suspended [granted .listed 0 1] 0 1) with
    holds := Table.put ready.holds 0 [entry .suspended 2000]
    tags := Table.put ready.tags 0 (Table.put (Table.fill 32 none) 3
      (some { window := 0, rights := .readWrite, offset := 0, kind := .read, addr := 0, len := 4, data := none,
              phase := .held })) }

/-- A transaction of node 0 on window 0 under tag 3. -/
def running (k : Kind) (ops : List TransactionOp) (role : Role) : Transaction :=
  { id := 0, node := 0, tag := some 3, kind := k, window := 0, chunk := 0, ops := ops, authoritative := role,
    readData := none }

/-- Node 0's transaction executes, its operations in progress on channel 0. -/
def executing (st : LiveState) (x : Transaction) (q : List PoolOp) (s : State) : State :=
  { s with
    windows := Table.put ready.windows 0 { generation := 0, life := some (live st [granted .listed 1 0] 1 0) }
    transactions := [x]
    nextTransaction := 1
    channels := Table.put ready.channels 0 q
    tags := Table.put ready.tags 0 (Table.put (Table.fill 32 none) 3
      (some { window := 0, rights := .readWrite, offset := 0, kind := x.kind, addr := 0, len := 4, data := none,
              phase := .executing 0 })) }

/-- The next state of a command; no command stops the part. -/
def after (i : Instr) (s : State) : State :=
  match exec i s with
  | .next t => t
  | .fault _ => s
  | .refused _ => s

/-- Hold queues, tags and records agree when a check of each finds it so. -/
theorem tagsAgree_of_check {s : State} (h1 : ∀ n, ((s.hold n).map fun e => e.tag).Nodup)
    (h2 : ∀ n, ∀ e ∈ s.hold n, (s.tag n e.tag).any (fun x => x.phase == .held) = true)
    (h3 : ∀ n t, (s.tag n t).all (fun x => match x.phase with
      | .held => (s.hold n).any fun e => e.tag == t
      | .executing id => s.transactions.any fun y => y.id == id && y.node == n && y.tag == some t) = true)
    (h4 : (s.transactions.map fun x => x.id).Nodup) (h5 : ∀ x ∈ s.transactions, x.id < s.nextTransaction)
    (h6 : ∀ x ∈ s.transactions, x.tag.all (fun t => (s.tag x.node t).any fun y => y.phase == .executing x.id) = true) :
    s.TagsAgree where
  heldOnce := h1
  heldTag n e he := by
    obtain ⟨x, hx, hp⟩ := (Option.any_eq_true ..).1 (h2 n e he)
    exact ⟨x, hx, by simpa using hp⟩
  tagHeld n t x hx hp := by
    have := h3 n t
    rw [hx] at this
    simpa [hp] using this
  idsOnce := h4
  idsPast := h5
  recordTag x hx t ht := by
    have := h6 x hx
    rw [ht] at this
    obtain ⟨y, hy, hp⟩ := (Option.any_eq_true ..).1 (show ((s.tag x.node t).any _) = true from this)
    exact ⟨y, hy, by simpa using hp⟩
  tagRecord n t y id hy hp := by
    have := h3 n t
    rw [hy] at this
    simpa [hp, and_assoc] using this

/-- The lists a grant stands in agree when a check of each finds it so. -/
theorem mapsOrdered_of_check {s : State}
    (h1 : ∀ w, (s.window w).life.all (fun v => decide (v.grants.Pairwise fun g h => g.node < h.node)) = true)
    (h2 : ∀ n w, decide (w ∈ s.map n) = (s.grant w n).any fun vg => vg.2.state != .draining)
    (h3 : ∀ n, (s.map n).Nodup) (h4 : ∀ n, (s.map n).length ≤ 32)
    (h5 : ∀ n, (s.mapEntries n).Pairwise fun x y => x.grant.base + x.live.bytes ≤ y.grant.base)
    (h6 : ∀ n, ∀ m ∈ s.mapEntries n, m.grant.base % granuleBytes = 0 ∧ m.grant.base + m.live.bytes ≤ nodeSpace) :
    s.MapsOrdered where
  byNode w v hv := by
    have := h1 w
    rw [hv] at this
    simpa using this
  listed n w := by
    have := h2 n w
    rw [← decide_eq_true_iff (p := w ∈ s.map n), this, Option.any_eq_true]
    constructor
    · rintro ⟨⟨v, g⟩, h, hs⟩
      exact ⟨v, g, h, by simpa using hs⟩
    · rintro ⟨v, g, h, hs⟩
      exact ⟨(v, g), h, by simpa using hs⟩
  once := h3
  bounded := h4
  byBase := h5
  inSpace := h6

/-- The counts are those of records and entries when a check of each finds it so. -/
theorem countsAgree_of_check {s : State}
    (h1 : ∀ w, (s.window w).life.all (fun v => v.executing == (s.recordsOf w).length &&
      v.held == (allNodes.map fun n => (s.heldUnder w n).length).sum) = true)
    (h2 : ∀ w n, (s.grant w n).all (fun vg =>
      vg.2.executing == ((s.recordsOf w).filter fun x => x.node == n).length &&
      vg.2.held == (s.heldUnder w n).length) = true)
    (h3 : ∀ x ∈ s.transactions, (s.grant x.window x.node).isSome) (h4 : ∀ n, ∀ e ∈ s.hold n, e.window ∈ s.map n)
    (h5 : ∀ n, ∀ e ∈ s.hold n, (s.tag n e.tag).any (fun x => (s.mapEntry n e.window).any fun m =>
      decide (x.window = e.window ∧ x.chunk = e.chunk ∧ x.addr = m.grant.base + x.offset ∧ 1 ≤ x.len ∧
        x.offset + x.len ≤ m.live.bytes)) = true) :
    s.CountsAgree where
  windowExecuting w v hv := by
    have := h1 w
    simp only [hv, Option.all_some, Bool.and_eq_true, beq_iff_eq] at this
    exact this.1
  windowHeld w v hv := by
    have := h1 w
    simp only [hv, Option.all_some, Bool.and_eq_true, beq_iff_eq] at this
    exact this.2
  grantExecuting w n v g hg := by
    have := h2 w n
    simp only [hg, Option.all_some, Bool.and_eq_true, beq_iff_eq] at this
    exact this.1
  grantHeld w n v g hg := by
    have := h2 w n
    simp only [hg, Option.all_some, Bool.and_eq_true, beq_iff_eq] at this
    exact this.2
  recordGrant := h3
  entryListed := h4
  entryRequest n e he := by
    obtain ⟨x, hx, h⟩ := (Option.any_eq_true ..).1 (h5 n e he)
    obtain ⟨m, hm, h⟩ := (Option.any_eq_true ..).1 h
    exact ⟨x, m, hx, hm, of_decide_eq_true (p := _ ∧ _ ∧ _ ∧ _ ∧ _) h⟩

theorem tagsAgree_shared : shared.TagsAgree :=
  tagsAgree_of_check (by decide) (by decide) (by decide) (by decide) (by decide) (by decide)
theorem tagsAgree_holding : holding.TagsAgree :=
  tagsAgree_of_check (by decide) (by decide) (by decide) (by decide) (by decide) (by decide)

/-! ### Commands and events in single steps -/

/-- A command taken on a state completes with a result code and results. -/
def answers (c : Cmd) (ps : List Word) (s : State) (code : ResultCode) (results : List Word) : Bool :=
  let t := after .commandCompletion (taking c ps s)
  t.errorCode == code && t.params == resultSlots results && t.taken.isNone && t.cmdDone && t.err == (code != .done)

theorem test_nop_taken :
    after .nop ready = { ready with commandSlot := 0, taken := some ⟨0, ready.params⟩ } := by decide
theorem test_nop : answers .nop [9] ready .done [] = true := by decide
theorem test_identify :
    answers .identify [] ready .done [0x4744, 1, 2048, 0, 0xFF00, 0x20044004] = true := by decide
theorem test_setTimers : answers .setTimers [3000, 250, 5] ready .done [2000, 100, 0] = true := by decide
theorem test_setTimers_range : answers .setTimers [65536, 0, 0] ready .badParam [] = true := by decide
theorem test_setPolicy : answers .setPolicy [1, 0, 1, 1, 1, 1] ready .done [0, 1, 1, 1, 1, 1] = true := by decide
theorem test_getAttention_none : answers .getAttention [] ready .done [0xFFFFFFFF, 0, 0, 0] = true := by decide
theorem test_getAttention :
    answers .getAttention [] ((ready.raise (.nodeUp 2)).raise (.quiet 5)) .done [3, 1, 0, 2] = true := by decide
theorem test_ackAttention :
    answers .ackAttention [3, 1] ((ready.raise (.nodeUp 2)).raise (.nodeDown 2)) .done [5, 4] = true := by decide
theorem test_createWindow : answers .createWindow [4, 0, 0] ready .done [0, 0, 0, 4] = true := by decide
theorem test_createWindow_explicit :
    (after .commandCompletion (taking .createWindow [2, 1, 100] ready)).freeList = [⟨0, 100⟩, ⟨102, 1946⟩] := by decide
theorem test_queryWindow :
    answers .queryWindow [0, 0] shared .done [1, 0, 0, 1, 1, 0, 0, 0xFF] = true := by decide
theorem test_queryFree : answers .queryFree [0] shared .done [1, 2047, 2047, 1, 2047] = true := by decide
theorem test_grant :
    answers .grant [0, 0, 1, 0x4000000, 0, 2] shared .done [0x41FFFFF, 0, 1, 0] = true := by decide
theorem test_grant_exists : answers .grant [0, 0, 0, 0x200000, 0, 2] shared .grantExists [1, 0, 0, 2] = true := by decide
theorem test_grant_unaligned : answers .grant [0, 0, 0, 0x300000, 0, 2] shared .badParam [] = true := by decide
theorem test_setRights : answers .setRights [0, 0, 0, 1] shared .done [2, 1, 0, 0] = true := by decide
theorem test_queryGrant :
    answers .queryGrant [0, 0, 0] shared .done [0x00FF0201, 0, 0, 0x1FFFFF, 0, 0xFFFFFFFF, 0, 0] = true := by decide
theorem test_lookup :
    answers .lookup [0, 0, 0x1000, 0] shared .done [0x01010000, 0x0001FF02, 0, 0, 0x1000, 0, 0x1000, 0] = true := by
  decide
theorem test_lookup_none : answers .lookup [0, 0, 0x200000, 0] shared .noWindow [1, 0xFFFFFFFF, 0xFFFFFFFF] = true := by
  decide
theorem test_admitNode : answers .admitNode [0] (linked .fenced shared) .done [0x103, 7] = true := by decide
theorem test_fenceNode : answers .fenceNode [0] shared .done [0x102, 7, 0] = true := by decide
theorem test_readFaultCapture_clear :
    answers .readFaultCapture [1] ready .done
      [0, 0xFFFFFFFF, 0xFFFFFFFF, 0xFFFFFFFF, 0xFFFFFFFF, 0xFFFFFFFF] = true := by decide
theorem test_releaseFaultCapture :
    answers .releaseFaultCapture [1]
      { ready with captures := Table.put ready.captures 1 (some ⟨8, .write, 1073745920, .rights⟩) } .done
      [1, 8, 1, 0x40001000, 0, 4] = true := by decide
theorem test_suspend : answers .suspend [0, 0] shared .done [0, 0, 1] = true := by decide
theorem test_resume : answers .resume [0, 0] holding .done [1, 1, 0, 1] = true := by decide
theorem test_revoke : answers .revoke [0, 0, 0] shared .done [2, 0, 100, 0, 0] = true := by decide
theorem test_retire :
    answers .retire [0, 0] (inUse (live .active [] 0 0)) .done
      [1, 1, 0, 0, 0xFFFFFF00, 0xFFFFFF00, 0xFFFFFF00, 0xFFFFFF00] = true := by decide
theorem test_retire_notice :
    answers .retire [0, 0] shared .done [0, 0, 0, 0, 0xFFFF0001, 0xFFFFFF00, 0xFFFFFF00, 0xFFFFFF00] = true := by decide
theorem test_migrate : answers .migrate [0, 0, 1, 70] shared .done [0, 70, 1, 0] = true := by decide
theorem test_abortJob :
    answers .abortJob [0] (moving (.copying (job 4096) true) (.reading 0) []) .done [0, 0, 1, 0] = true := by decide
theorem test_queryJob :
    answers .queryJob [0] (moving (.copying (job 4096) true) (.reading 0) []) .done
      [0x01FF0201, 0, 0, 1, 1, 1, 1, 0] = true := by decide
theorem test_badCommand :
    (after .commandCompletion (after (.badCommand 0x63#32) ready)).errorCode = .badCommand := by decide
theorem test_window_stale : answers .suspend [0, 9] shared .stale [0, 1] = true := by decide
theorem test_window_free : answers .queryWindow [1, 0] shared .noWindow [0] = true := by decide

theorem test_linkUp : (after (.linkUp 0) ready).link 0 = .listening := by decide
theorem test_linkDown : (after (.linkDown 0) holding).link 0 = .down ∧ (after (.linkDown 0) holding).hold 0 = [] := by
  decide
theorem test_hello :
    (after (.hello 0 7#32) (linked .listening ready)).port 0 =
      { Port.reset with link := .fenced, identity := some 7, standing := .closed, outbound := [.welcome false] } := by
  decide

/-- The window of section 5.9 under number 0: home (40, 2), granted to node 1 at 1 GiB with READ rights. -/
def translated : State :=
  { ready with
    poolCode := 1
    windows := Table.put ready.windows 0
      { generation := 2
        life := some
          { state := .active
            home := ⟨40, 2⟩
            grants := [⟨1, 1073741824, .read, .listed, 0, 0⟩]
            executing := 0
            held := 0
            quietPending := false } }
    freeList := [⟨0, 40⟩, ⟨42, 4054⟩]
    maps := Table.put ready.maps 1 [0]
    ports := Table.put ready.ports 1 { Port.reset with link := .admitted } }

theorem test_read_translated :
    (after (.read 1 7 1075843072#40 64#16) translated).channel 1 =
      [⟨.read, 85987328, 64, [], .transaction 0 .home⟩] := by decide
theorem test_write_rights :
    (after (.write 1 8 1073745920#40 2#16 [1, 2]) translated).capture 1 =
      some ⟨8, .write, 1073745920, .rights⟩ := by decide
theorem test_write_crosses_chunk :
    ((after (.write 1 9 1073750008#40 16#16 (List.replicate 16 0)) translated).port 1).outbound =
      [.completion 9 (.fault .badRequest)] := by decide
theorem test_read_past_range :
    ((after (.read 1 10 1077936128#40 8#16) translated).port 1).outbound =
      [.completion 10 (.fault .noWindow)] := by decide
theorem test_read_held :
    (after (.read 0 4 0#40 4#16) holding).hold 0 =
      [entry .suspended 2000, ⟨4, 0, 0, .suspended, 2000⟩] := by decide
theorem test_transaction_end :
    ((after (.transactionOperationEnd 0 false)
      (executing .active (running .write [⟨.home, 0, 1, .pending⟩] .home)
        [⟨.write, 0, 1, [5], .transaction 0 .home⟩] shared)).port 0).outbound = [.completion 3 (.ok [])] := by decide
theorem test_transaction_stores :
    (after (.transactionOperationEnd 0 false)
      (executing .active (running .write [⟨.home, 0, 1, .pending⟩] .home)
        [⟨.write, 0, 1, [5], .transaction 0 .home⟩] shared)).pool.values = [(0, 5)] := by decide
theorem test_transaction_spoils :
    (after (.transactionOperationEnd 0 true)
      (executing .active (running .read [⟨.home, 0, 2, .pending⟩] .home)
        [⟨.read, 0, 2, [], .transaction 0 .home⟩] shared)).pool.marks = [0, 1] := by decide
theorem test_holdExpiry :
    ((after (.holdExpiry 0) holding).port 0).outbound = [.completion 3 (.fault .holdExpired)] ∧
      (after (.holdExpiry 0) holding).now = 2000 := by decide
theorem test_revokeAck :
    (after (.revokeAck 0 5) (inUse (live .active [granted (.revoking 5 none) 0 0] 0 0))).map 0 = [] := by decide
theorem test_revokeDeadline :
    (after (.revokeDeadline 0 0) (inUse (live .active [granted (.revoking 5 (some 9)) 0 0] 0 0))).isPending
      (.revokeForced 0) = true := by decide
theorem test_malformed :
    (after (.malformedMessage 0 [9]) shared).isPending (.protocol 0) = true := by decide
theorem test_handToLinkLayer :
    ((after (.handToLinkLayer 0) (shared.send 0 .admitNotice)).port 0).handed = [0x84, 0, 0, 0] := by decide
theorem test_copyReadEnd :
    (after (.copyReadEnd true) (moving (.copying (job 0) true) (.reading 0) [copyRead 0 (job 0)])).slot 0 =
      .finished (job 0) (.aborted .copyReadError) := by decide
theorem test_copyWriteEnd_fails :
    (after (.copyWriteEnd true) (moving (.copying (job 0) true) (.writing 0 []) [copyWrite 0 (job 0) []])).slot 0 =
      .finished (job 0) (.aborted .copyWriteError) := by decide
theorem test_copyWriteEnd_switches :
    let t := after (.copyWriteEnd false)
      (moving (.copying (job 2093056) true) (.writing 0 []) [copyWrite 0 (job 2093056) []])
    t.slot 0 = .finished (job 2097152) .done ∧ t.freeList = [⟨0, 1⟩, ⟨2, 2046⟩] := by decide
theorem test_pacingEnd :
    (after .pacingEnd (moving (.copying (job 0) false) (.pacing 4) [])).engine = { phase := .reading 0, last := 0 } := by
  decide
theorem test_paramWrite : (after (.paramWrite 10 9#32) ready).readSlot 10 = 9#32 := by decide
theorem test_clearOverrun :
    (after (.clearOverrun 1#32) { ready with overrun := true, cmdDone := true }) = { ready with cmdDone := true } := by
  decide
theorem test_clearCmdDone : (after (.clearCmdDone 2#32) { ready with cmdDone := true }) = ready := by decide
theorem test_softReset :
    after (.softReset 0x80#32) (taking .retire [0, 0] { ready with overrun := true }) = ready := by decide
theorem test_deviceReset : after (.deviceReset .pin) shared = State.reset := by decide
theorem test_resetRelease : (after (.resetRelease 3 true) State.reset).freeList = [⟨0, 16384⟩] := by decide
theorem test_bootInstall :
    (after (.bootInstall []) { ready with booting := true }).bootStatus = ⟨.notEnabled, none⟩ := by decide

/-- The image of section 10.6. -/
def image : BootImage :=
  { holdLimit := 3000
    revokeLimit := 250
    copyPacing := 0
    policy := 0
    mask := 0b1010
    windows := [⟨0, 16, [⟨1, 0, 2⟩]⟩, ⟨16, 8, [⟨1, 0x2000000, 1⟩, ⟨3, 0, 2⟩]⟩] }

/-- The part while the boot load runs, with an 8 GiB pool. -/
def loading : State :=
  { State.reset with resetHeld := false, poolCode := 1, bootEnable := true, freeList := [⟨0, 4096⟩] }

theorem test_image_length : image.encode.length = 49 := by decide
theorem test_image_installed :
    let t := after (.bootInstall image.encode) loading
    t.freeList = [⟨24, 4072⟩] ∧ t.map 1 = [0, 1] ∧ t.map 3 = [1] ∧ t.bootStatus = ⟨.loaded, none⟩ := by decide

/-! ### Witnesses: states and operands that meet a statement's hypotheses, named after the statement -/

/-- Four timers: holds of nodes 0 and 1 at 10 and 5, a deadline at 7, a pacing end at 9. -/
def timed : State :=
  { inUse (live .active [granted (.revoking 5 (some 7)) 0 0] 0 0) with
    holds := Table.put (Table.put ready.holds 0 [entry .suspended 10]) 1 [entry .suspended 5]
    engine := { phase := .pacing 9, last := 0 } }

theorem witness_TimePassesInOrder_idle :
    timed.pending = [] ∧ timed.resetHeld = false ∧ ∀ t ∈ timed.timers, timed.now < t := by decide
theorem witness_TimePassesInOrder_due :
    ({ timed with now := 5 } : State).resetHeld = false ∧ ∃ t ∈ ({ timed with now := 5 } : State).timers, t ≤ 5 := by
  decide
theorem witness_TimePassesInOrder_held : State.reset.pending = [] ∧ State.reset.resetHeld = true := by decide
theorem witness_TimePassesInOrder_earlier :
    5 ∈ timed.timers ∧ (∀ e ∈ timed.hold 0, 5 < e.expiry) ∧ timed.deadlineOf 0 0 = some 7 ∧
      timed.engine.phase = .pacing 9 := by decide

theorem witness_EventsAnswerNext : State.reset.resetHeld = true ∧ Instr.nop ≠ .deviceReset .pin := by decide

theorem witness_ResetAndReleaseComplete_kept :
    let s := moving (.copying (job 0) true) (.writing 0 []) [copyWrite 0 (job 0) []]
    ∀ op ∈ s.channel 0, op.kind = .write → 2097151 < op.addr ∨ op.addr + op.len ≤ 2097151 := by decide

theorem witness_ResetAndReleaseComplete_release : State.reset.resetHeld = true := by decide

theorem witness_CommandIsTaken :
    commandRow .queryJob = some 0x62 ∧ commandRow (.badCommand 0x63) = some 0x63 ∧ ready.portFree := by decide

theorem witness_SlotWritesTakeEffect_busy :
    (taking .nop [] ready).resetHeld = false ∧ (taking .nop [] ready).taken.isSome ∧
      ({ ready with booting := true } : State).resetHeld = false ∧ commandRow .nop = some 0 ∧
      3 ≤ (3 : Fin 16).val ∧ (10 : Fin 16).val ≤ 10 := by decide
theorem witness_SlotWritesTakeEffect_stored :
    ready.portFree ∧ (3 : Fin 16).val = (0 : Fin 8).val + 3 ∧ (10 : Fin 16).val = (7 : Fin 8).val + 3 ∧
      (1 : Fin 16).val ∈ [1, 11, 12, 13, 14, 15] := by decide

theorem witness_ControlWriteActs :
    ready.resetHeld = false ∧ (0x02#32).getLsbD 7 = false ∧ (0x02#32).getLsbD 1 = true ∧
      (0x80#32).getLsbD 7 = true ∧ (0x7C#32).getLsbD 0 = false ∧ (0x7C#32).getLsbD 1 = false ∧
      (0x7C#32).getLsbD 7 = false := by decide

theorem witness_CompletionWritesSlots :
    (taking .nop [] ready).resetHeld = false ∧ (taking .nop [] ready).taken = some ⟨0, resultSlots []⟩ ∧
      (∀ c ∈ Cmd.all, c.code ≠ 0x63) ∧ ready.taken = none := by decide
theorem witness_CompletionWritesSlots_code (c : Cmd) : c.code ≠ 0x63 := by cases c <;> decide

theorem witness_NopCompletes : ready.portFree ∧ (taking .nop [] ready).completing .nop (resultSlots []) := by decide

theorem witness_SetTimersCompletes :
    let p := resultSlots [65535, 65535, 255]
    let q := resultSlots [65536, 0, 0]
    let r := resultSlots [0, 0, 256]
    ready.portFree ∧ (taking .setTimers [65535, 65535, 255] ready).completing .setTimers p ∧ param p 0 ≤ 65535 ∧
      param p 1 ≤ 65535 ∧ param p 2 ≤ 255 ∧ 65535 < param q 0 ∧ 255 < param r 2 := by decide

theorem witness_SetPolicyCompletes :
    let p := resultSlots [1, 0, 1, 0, 1, 0]
    let q := resultSlots [0, 0, 0, 0, 0, 2]
    ready.portFree ∧ (taking .setPolicy [1, 0, 1, 0, 1, 0] ready).completing .setPolicy p ∧
      (∀ k : Fin 8, k.val < 6 → param p k ≤ 1) ∧ ∃ k : Fin 8, k.val < 6 ∧ 1 < param q k := by decide

theorem witness_IdentifyReports :
    (taking .identify [] ready).completing .identify (resultSlots []) := by decide

theorem witness_AttentionCommandsComplete_get :
    let s := taking .getAttention [] (ready.raise (.quiet 63))
    s.completing .getAttention (resultSlots []) ∧ s.reasons 72 ≠ 0 ∧ (∀ k < 72, s.reasons k = 0) ∧
      ∀ i, ready.reasons i = 0 := by decide
theorem witness_AttentionCommandsComplete_ack :
    let p := resultSlots [5, 3]
    let q := resultSlots [5, 4]
    (taking .ackAttention [5, 3] ready).completing .ackAttention p ∧ param p 0 = (5 : Fin 73).val ∧
      72 < param (resultSlots [73]) 0 ∧ (Table.get q 1).getLsbD 2 = true ∧
      (sourceClass (5 : Fin 73).val).mask.getLsbD 2 = false ∧
      ∀ b < 32, (Table.get p 1).getLsbD b = true → (sourceClass (5 : Fin 73).val).mask.getLsbD b = true := by decide

theorem witness_WindowCheckRefuses_steps :
    (Cmd.suspend, [1]) ∈ windowCommands ∧
      (taking .suspend [63, 0] shared).completing .suspend (resultSlots [63, 0]) ∧
      63 < param (resultSlots [64, 0]) 0 ∧ 255 < param (resultSlots [0, 256]) 1 ∧
      param (resultSlots [63, 0]) 0 = (63 : WindowId).val ∧ param (resultSlots [0, 255]) 1 ≤ 255 ∧
      (shared.window 63).life = none := by decide
theorem witness_WindowCheckRefuses_state :
    let s := inUse (live .retiring [granted .draining 1 0] 1 0)
    (s.window 0).life = some (live .retiring [granted .draining 1 0] 1 0) ∧
      param (resultSlots [0, 255]) 1 ≠ (s.window 0).generation.toNat ∧
      param (resultSlots [0, 0]) 1 = (s.window 0).generation.toNat ∧
      (live .retiring [granted .draining 1 0] 1 0).state.code ∉ [1] := by decide

theorem witness_CreateWindowCompletes_range :
    4096 < param (resultSlots [4097]) 0 ∧ 1 < param (resultSlots [1, 2]) 1 ∧
      shared.granules < param (resultSlots [1, 1, 2048]) 2 + param (resultSlots [1, 1, 2048]) 0 := by decide
theorem witness_CreateWindowCompletes_made :
    let p := resultSlots [1, 1, 2047]
    let q := resultSlots [4096, 0]
    (taking .createWindow [1, 1, 2047] shared).completing .createWindow p ∧ 1 ≤ param p 0 ∧ param p 0 ≤ 4096 ∧
      param p 1 ≤ 1 ∧ param p 2 + param p 0 ≤ shared.granules ∧ (shared.window 1).life = none ∧
      (∀ x < (1 : WindowId), (shared.window x).life ≠ none) ∧
      allocateExplicit ⟨param p 2, param p 0⟩ shared.freeList = some [⟨1, 2046⟩] ∧
      firstFit (param q 0) shared.freeList = none ∧ allocateExplicit ⟨0, 1⟩ shared.freeList = none ∧
      firstFit 1 shared.freeList = some (⟨1, 1⟩, [⟨2, 2046⟩]) := by decide
theorem witness_CreateWindowCompletes_full :
    let s := taking .createWindow [1]
      { ready with windows := Table.fill 64 { generation := 0, life := some (live .active [] 0 0) } }
    s.completing .createWindow (resultSlots [1]) ∧ ∀ w, (s.window w).life ≠ none := by decide

theorem witness_DirectoryQueriesReport_window :
    let s := taking .queryWindow [0, 0] shared
    s.completing .queryWindow (resultSlots [0, 0]) ∧
      s.names (resultSlots [0, 0]) 0 (live .active [granted .listed 0 0] 0 0) := by decide
theorem witness_DirectoryQueriesReport_free :
    let s := taking .queryFree [0] shared
    s.completing .queryFree (resultSlots [0]) ∧ (∀ e ∈ s.freeList, e.len ≤ 2047) ∧
      (∃ e ∈ s.freeList, e.len = 2047) ∧ s.freeList[param (resultSlots [0]) 0]? = some ⟨1, 2047⟩ ∧
      s.freeList.length ≤ param (resultSlots [1]) 0 := by decide

theorem witness_FreeExtentListOperations_first :
    (∀ x ∈ [(⟨0, 1⟩ : Extent)], x.len < 2) ∧ (⟨4, 2⟩ : Extent).len = 2 ∧ 2 < (⟨4, 3⟩ : Extent).len := by decide
theorem witness_FreeExtentListOperations_explicit :
    (∀ x ∈ [(⟨0, 1⟩ : Extent)], ¬(x.base ≤ 4 ∧ 4 + 2 ≤ x.base + x.len)) ∧ 4 ≤ 4 ∧ 4 + 2 ≤ 4 + 2 := by decide

theorem witness_FreeExtentListOperations_release :
    (∀ x ∈ [(⟨0, 1⟩ : Extent)], x.base + x.len < 4) ∧ (∀ x ∈ [(⟨9, 1⟩ : Extent)], 4 + 2 < x.base) ∧ 2 ≤ 4 := by decide

theorem witness_GrantCompletes_made :
    let p := resultSlots [0, 0, 1, 0xFFE00000, 0xFF, 1]
    let s := taking .grant [0, 0, 1, 0xFFE00000, 0xFF, 1] shared
    let v := live .active [granted .listed 0 0] 0 0
    s.completing .grant p ∧ s.names p 0 v ∧ v.state ≠ .retiring ∧ param p 2 = (1 : NodeId).val ∧
      param p 5 = Rights.read.code ∧ paramAddress p 3 4 % granuleBytes = 0 ∧
      paramAddress p 3 4 + v.bytes ≤ nodeSpace ∧ 1 ≤ v.home.len ∧ v.grant 1 = none ∧ (s.map 1).length < 32 ∧
      ∀ m ∈ s.mapEntries 1, paramAddress p 3 4 + v.bytes ≤ m.grant.base ∨
        m.grant.base + m.live.bytes ≤ paramAddress p 3 4 := by decide
theorem witness_GrantCompletes_param :
    3 < param (resultSlots [0, 0, 4]) 2 ∧ param (resultSlots [0, 0, 0, 0, 0, 3]) 5 ≠ 1 ∧
      param (resultSlots [0, 0, 0, 0, 0, 3]) 5 ≠ 2 ∧ nodeSpace ≤ paramAddress (resultSlots [0, 0, 0, 0, 256]) 3 4 ∧
      paramAddress (resultSlots [0, 0, 0, 1]) 3 4 % granuleBytes ≠ 0 := by decide
theorem witness_GrantCompletes_exists :
    (live .active [granted .listed 0 0] 0 0).grant 0 = some (granted .listed 0 0) := by decide
theorem witness_GrantCompletes_full :
    let s := { shared with maps := Table.put ready.maps 1 (List.replicate 32 1) }
    (live .active [granted .listed 0 0] 0 0).grant 1 = none ∧ 32 ≤ (s.map 1).length := by decide
theorem witness_GrantCompletes_overlap :
    let w1 : Live := { live .active [] 0 0 with home := ⟨1, 1⟩ }
    let s := shared.setWindow 1 { generation := 0, life := some w1 }
    let m : MapEntry := ⟨0, live .active [granted .listed 0 0] 0 0, granted .listed 0 0⟩
    w1.grant 0 = none ∧ (s.map 0).length < 32 ∧ s.mapEntries 0 = [] ++ m :: [] ∧ m.grant.base < 0 + w1.bytes ∧
      0 < m.grant.base + m.live.bytes := by decide
theorem witness_GrantCompletes_order :
    (∀ x ∈ [(4 : WindowId)], (fun w : WindowId => w.val * 10) x ≤ 45) ∧
      (∀ x ∈ [(5 : WindowId)], 45 < (fun w : WindowId => w.val * 10) x) ∧
      (∀ x ∈ [granted .listed 0 0], x.node < (GrantRecord.fresh 1 0 .read).node) ∧
      ∀ x ∈ [GrantRecord.fresh 2 0 .read], (GrantRecord.fresh 1 0 .read).node < x.node := by decide

theorem witness_SetRightsCompletes :
    let s := taking .setRights [0, 0, 0, 1] shared
    let p := resultSlots [0, 0, 0, 1]
    let v := live .active [granted .listed 0 0] 0 0
    s.completing .setRights p ∧ s.names p 0 v ∧ v.state ≠ .retiring ∧ param p 2 = (0 : NodeId).val ∧
      param p 3 = Rights.read.code ∧ v.grant 0 = some (granted .listed 0 0) ∧
      (granted .listed 0 0).state ≠ .draining ∧ v.grant 1 = none ∧ 3 < param (resultSlots [0, 0, 4]) 2 ∧
      (live .active [granted .draining 1 0] 1 0).grant 0 = some (granted .draining 1 0) := by decide

theorem witness_GrantQueriesReport_grant :
    let s := taking .queryGrant [0, 0, 0] timed
    let v := live .active [granted (.revoking 5 (some 7)) 0 0] 0 0
    s.completing .queryGrant (resultSlots [0, 0, 0]) ∧ s.names (resultSlots [0, 0, 0]) 0 v ∧
      param (resultSlots [0, 0, 0]) 2 = (0 : NodeId).val ∧ v.grant 0 = some (granted (.revoking 5 (some 7)) 0 0) ∧
      s.now < 7 ∧ v.grant 1 = none := by decide
theorem witness_GrantQueriesReport_lookup :
    let s := taking .lookup [0, 0, 0x1FFFFF, 0] shared
    let m : MapEntry := ⟨0, live .active [granted .listed 0 0] 0 0, granted .listed 0 0⟩
    s.completing .lookup (resultSlots [0, 0, 0x1FFFFF, 0]) ∧ param (resultSlots [0, 0, 0x1FFFFF, 0]) 1 = 0 ∧
      paramAddress (resultSlots [0, 0, 0x1FFFFF, 0]) 2 3 < nodeSpace ∧ s.entryAt 0 0x1FFFFF = some m ∧
      s.entryAt 0 0x200000 = none ∧ (∀ m ∈ s.mapEntries 0, m.grant.base ≤ 0x200000) ∧
      nodeSpace ≤ paramAddress (resultSlots [0, 0, 0, 256]) 2 3 ∧ 1 < param (resultSlots [0, 2]) 1 ∧
      (s.mapEntries 0)[param (resultSlots [0, 1, 0]) 2]? = some m ∧
      (s.mapEntries 0)[param (resultSlots [0, 1, 1]) 2]? = none ∧ (s.map 0).length ≤ 32 := by decide
theorem witness_GrantQueriesReport_above :
    let m : MapEntry := ⟨0, live .active [{ granted .listed 0 0 with base := 0x200000 }] 0 0,
      { granted .listed 0 0 with base := 0x200000 }⟩
    let s := inUse m.live
    s.entryAt 0 0x1FFFFF = none ∧ s.mapEntries 0 = [] ++ m :: [] ∧ 0x1FFFFF < m.grant.base := by decide

theorem witness_LinkComesUp :
    ready.resetHeld = false ∧ ready.link 0 = .down ∧ shared.link 0 ≠ .down ∧
      (linked .listening ready).link 0 = .listening ∧
      ((ready.port 0).standing = .opened ∧ ready.booting = false ∧
        ({ ready with maskInForce := 1 } : State).maskInForce.getLsbD 0 = true) := by decide

/-- Node 0's grants of four windows: REVOKING with nothing executing on window 0, RETIRING with that grant alone;
REVOKING with one transaction on window 1; LISTED on window 2; DRAINING on window 3. -/
def withdrawing : State :=
  { shared with
    windows := Table.put (Table.put (Table.put (Table.put ready.windows
      0 { generation := 0, life := some (live .retiring [granted (.revoking 5 none) 0 0] 0 0) })
      1 { generation := 0, life := some (live .active [granted (.revoking 6 none) 1 0] 1 0) })
      2 { generation := 0, life := some (live .active [granted .listed 0 0] 0 0) })
      3 { generation := 0, life := some (live .active [granted .draining 1 0] 1 0) }
    maps := Table.put ready.maps 0 [0, 1, 2] }

theorem witness_NodeLossClearsNode :
    withdrawing.resetHeld = false ∧ withdrawing.link 0 ≠ .down ∧ withdrawing.link 0 ≠ .listening ∧
      withdrawing.grant 2 0 = some (live .active [granted .listed 0 0] 0 0, granted .listed 0 0) ∧
      withdrawing.grant 3 0 = some (live .active [granted .draining 1 0] 1 0, granted .draining 1 0) ∧
      0 < (granted (.revoking 6 none) 1 0).executing ∧
      withdrawing.grant 1 0 = some (live .active [granted (.revoking 6 none) 1 0] 1 0, granted (.revoking 6 none) 1 0) ∧
      (withdrawing.port 0).standing = .opened ∧ ready.booting = false ∧ loading.booting = true := by decide
theorem witness_NodeLossClearsNode_removed :
    let v := live .retiring [granted (.revoking 5 none) 0 0] 0 0
    withdrawing.grant 0 0 = some (v, granted (.revoking 5 none) 0 0) ∧ (granted (.revoking 5 none) 0 0).executing = 0 ∧
      v.state = .retiring ∧ (∀ k ∈ v.grants, k.node = 0) ∧
      (∃ k ∈ (granted (.revoking 5 none) 0 0) :: [GrantRecord.fresh 1 0 .read], k.node ≠ 0) ∧
      (live .active [granted (.revoking 5 none) 0 0] 0 0).state ≠ .retiring := by decide
theorem test_linkDown_withdraws :
    let t := after (.linkDown 0) withdrawing
    t.map 0 = [2] ∧ t.window 0 = { generation := 1, life := none } ∧ t.isPending (.retireDone 0) = true ∧
      t.grant 1 0 = some (live .active [granted .draining 1 0] 1 0, granted .draining 1 0) ∧
      t.freeList = [⟨0, 2048⟩] := by decide

theorem witness_AdmitNodeCompletes :
    let s := taking .admitNode [0] (linked .fenced shared)
    s.completing .admitNode (resultSlots [0]) ∧ param (resultSlots [3]) 0 = (3 : NodeId).val ∧ s.link 0 = .fenced ∧
      s.link 3 ≠ .fenced ∧ 3 < param (resultSlots [4]) 0 := by decide

theorem witness_FenceNodeCompletes :
    (taking .fenceNode [0] holding).completing .fenceNode (resultSlots [0]) ∧
      param (resultSlots [0]) 0 = (0 : NodeId).val ∧ holding.link 0 = .admitted ∧ holding.link 1 ≠ .admitted ∧
      holding.nodeExecuting 0 = 0 ∧ 3 < param (resultSlots [4]) 0 := by decide
theorem witness_FenceNodeCompletes_agree : (taking .fenceNode [0] holding).TagsAgree :=
  tagsAgree_of_check (by decide) (by decide) (by decide) (by decide) (by decide) (by decide)
theorem witness_FenceNodeCompletes_executing :
    let s := executing .active (running .write [⟨.home, 0, 1, .pending⟩] .home)
      [⟨.write, 0, 1, [5], .transaction 0 .home⟩] shared
    s.nodeExecuting 0 ≠ 0 ∧ s.link 0 = .admitted := by decide

theorem witness_HeadMessageLeaves :
    (shared.send 0 .admitNotice).resetHeld = false ∧
      ((shared.send 0 .admitNotice).port 0).outbound = .admitNotice :: [] ∧ (shared.port 0).outbound = [] := by decide

theorem witness_MisplacedMessagesAreTurnedAway :
    shared.resetHeld = false ∧ shared.link 0 ≠ .down ∧ Inbound.parse [9] = none ∧ [(1 : Byte)].length ≠ (2#16).toNat ∧
      Inbound.parse [4, 9, 0, 0] = some (.revokeAck 9) ∧ (linked .listening shared).link 0 = .listening ∧
      (linked .fencing shared).link 0 = .fencing ∧ carries .read 4#16 [] ∧ carries .write 1#16 [7] ∧
      (holding.tag 0 3).isSome := by decide

theorem witness_InboundParseInvertsEncode :
    (Inbound.write 31 5 2 [1, 2]).wellFormed = true ∧
      Inbound.parse (Inbound.write 31 5 2 [1, 2]).encode = some (.write 31 5 2 [1, 2]) := by decide

theorem witness_FailedChecksAreFaulted_format :
    shared.resetHeld = false ∧ carries .read 0#16 [] ∧ carries .read 257#16 [] ∧ shared.link 0 = .admitted ∧
      shared.tag 0 31 = none ∧ 256 < (257#16).toNat ∧ 4096 < (4095#40).toNat % 4096 + (2#16).toNat := by decide
theorem witness_FailedChecksAreFaulted_lookup :
    shared.entryAt 0 0x200000 = none ∧ 1 ≤ (256#16).toNat ∧ (256#16).toNat ≤ 256 ∧
      (3840#40).toNat % 4096 + (256#16).toNat ≤ 4096 := by decide
theorem witness_FailedChecksAreFaulted_rights :
    translated.entryAt 1 1073741824 = some ⟨0, ((translated.window 0).life).getD (live .active [] 0 0),
      ⟨1, 1073741824, .read, .listed, 0, 0⟩⟩ ∧ carries .write 1#16 [7] := by decide
theorem witness_FailedChecksAreFaulted_retired :
    let v := live .retiring [granted (.revoking 5 none) 0 0] 0 0
    (inUse v).entryAt 0 0 = some ⟨0, v, granted (.revoking 5 none) 0 0⟩ ∧ v.state = .retiring := by decide

/-- The arrival of a request at node address 0 in a state whose node 0 is free to send. -/
def mayArrive (s : State) (m : MapEntry) : Bool :=
  !s.resetHeld && s.link 0 == .admitted && s.tag 0 4 == none && s.entryAt 0 0 == some m &&
    decide (1 ≤ m.grant.base + m.live.bytes) && m.grant.rights == .readWrite

theorem witness_BlockedRequestIsHeldOrRetried_suspended :
    let m : MapEntry := ⟨0, live .suspended [granted .listed 0 1] 0 1, granted .listed 0 1⟩
    mayArrive holding m = true ∧ carries .read 1#16 [] ∧ m.live.state = .suspended ∧ holding.settings.holdLimit ≠ 0 ∧
      (holding.hold 0).length < 8 := by decide
theorem witness_BlockedRequestIsHeldOrRetried_chunk :
    let v := live (.migrating 0) [granted .listed 0 0] 0 0
    let s := moving (.copying (job 0) true) (.reading 0) []
    mayArrive s ⟨0, v, granted .listed 0 0⟩ = true ∧ carries .write 1#16 [7] ∧ s.slot 0 = .copying (job 0) true ∧
      (job 0).cursor = (0 - 0) / 4096 * 4096 := by decide
theorem witness_BlockedRequestIsHeldOrRetried_behind :
    let v := live (.migrating 0) [granted .listed 0 1] 0 1
    let s := { moving (.copying (job 0) true) (.reading 0) [] with
      windows := (inUse v).windows
      holds := holding.holds
      tags := holding.tags }
    mayArrive s ⟨0, v, granted .listed 0 1⟩ = true ∧ carries .read 1#16 [] ∧
      ∃ e ∈ s.hold 0, e.window = 0 ∧ e.chunk = (0 - 0) / 4096 := by decide
theorem witness_BlockedRequestIsHeldOrRetried_retry :
    let s := { holding with settings := { holding.settings with holdLimit := 0 } }
    let q := { holding with holds := Table.put holding.holds 0 (List.replicate 8 (entry .suspended 2000)) }
    s.settings.holdLimit = 0 ∧ 8 ≤ (q.hold 0).length := by decide

theorem witness_UnblockedRequestExecutes_active :
    mayArrive shared ⟨0, live .active [granted .listed 0 0] 0 0, granted .listed 0 0⟩ = true ∧ carries .write 1#16 [7] ∧
      ∀ e ∈ shared.hold 0, e.window = 0 → e.chunk ≠ (0 - 0) / 4096 := by decide
theorem witness_UnblockedRequestExecutes_migrating :
    let s := moving (.copying (job 4096) true) (.reading 0) []
    mayArrive s ⟨0, live (.migrating 0) [granted .listed 0 0] 0 0, granted .listed 0 0⟩ = true ∧ carries .write 1#16 [7] ∧
      (s.slot 0).job = some (job 4096) ∧ (job 4096).cursor ≠ (0 - 0) / 4096 * 4096 ∧ 0 * 4096 < (job 4096).cursor ∧
      (job 4096).cursor ≤ 1 * 4096 := by decide

theorem witness_OperationEndActsOnPool :
    let op : PoolOp := ⟨.write, 8, 2, [1, 2], .transaction 0 .home⟩
    let r := ready.endOp 0 op [] false
    op.kind = .write ∧ r.failed = false ∧ op.data.length = op.len ∧ op.data[9 - op.addr]? = some 2 ∧
      (ready.endOp 0 op [] true).failed = true ∧ (ready.endOp 0 { op with kind := .read } [] false).failed = false := by
  decide

/-- Node 0's WRITE of one byte on window 0, its last operation at the head of channel 0. -/
def writing (st : LiveState) (s : State) : State :=
  executing st (running .write [⟨.home, 0, 1, .pending⟩] .home) [⟨.write, 0, 1, [5], .transaction 0 .home⟩] s

/-- The same WRITE as an orphan, under a grant of a given state. -/
def orphaned (st : LiveState) (g : GrantState) (s : State) : State :=
  { writing st s with
    windows := Table.put ready.windows 0 { generation := 0, life := some (live st [granted g 1 0] 1 0) }
    transactions := [{ running .write [⟨.home, 0, 1, .pending⟩] .home with tag := none }]
    tags := ready.tags }

theorem witness_TransactionOperationEnds_last :
    let x := running .write [⟨.home, 0, 1, .pending⟩] .home
    let s := writing .active shared
    s.opOf 0 ⟨.write, 0, 1, [5], .transaction 0 .home⟩ [] x .home ∧
      (∀ o ∈ (x.afterOp .home false []).ops, o.outcome ≠ .pending) ∧ x.mirrored = false ∧ x.tag = some 3 ∧
      s.link x.node ≠ .down ∧ (s.window x.window).life = some (live .active [granted .listed 1 0] 1 0) := by
  unfold State.opOf
  decide
theorem witness_TransactionOperationEnds_fails :
    let x := running .write [⟨.home, 0, 1, .pending⟩] .home
    let s := writing .active shared
    (s.endOp 0 ⟨.write, 0, 1, [5], .transaction 0 .home⟩ [] true).failed = true ∧
      (x.afterOp .home true []).failed = true ∧ s.capture 0 = none ∧ (s.tag 0 3).isSome := by decide
theorem witness_TransactionOperationEnds_orphan :
    let x := { running .write [⟨.home, 0, 1, .pending⟩] .home with tag := none }
    (orphaned .active .listed shared).opOf 0 ⟨.write, 0, 1, [5], .transaction 0 .home⟩ [] x .home ∧ x.tag = none := by
  unfold State.opOf
  decide
theorem witness_TransactionOperationEnds_noted (s : State) (id : Nat) (u : Transaction) (role : Role) (r : OpEnd) :
    ∃ a, s.noted id u role r a := ⟨_, (noted_iff ..).2 rfl⟩
theorem witness_TransactionOperationEnds_agree : (writing .active shared).TagsAgree :=
  tagsAgree_of_check (by decide) (by decide) (by decide) (by decide) (by decide) (by decide)
theorem witness_TransactionOperationEnds_orphan_agree : (orphaned .active .listed shared).TagsAgree :=
  tagsAgree_of_check (by decide) (by decide) (by decide) (by decide) (by decide) (by decide)
theorem witness_TransactionOperationEnds_pending :
    let x := running .write [⟨.old, 0, 1, .pending⟩, ⟨.target, 2097152, 1, .pending⟩] .old
    ∃ o ∈ (x.afterOp .old false []).ops, o.outcome = .pending := by decide
theorem witness_TransactionOperationEnds_quiet :
    let v := { live .suspended [granted .listed 1 0] 1 0 with quietPending := true }
    v.quietPending = true ∧ v.executing = 1 ∧ v.state ≠ .retiring := by decide

/-- The state in which the outcome of an operation has been noted, when no mirror write failed. -/
def notedPlain (s : State) (id : Nat) (u : Transaction) (r : OpEnd) : State :=
  { r.state with transactions := s.transactions.map fun y => if y.id = id then u else y }

theorem witness_TransactionEndHandsOn_noted :
    let s := orphaned .retiring .draining (linked .fencing shared)
    let x := { running .write [⟨.home, 0, 1, .pending⟩] .home with tag := none }
    let r := s.endOp 0 ⟨.write, 0, 1, [5], .transaction 0 .home⟩ [] true
    let u := x.afterOp .home r.failed r.bytes
    let a := notedPlain s x.id u r
    s.noted x.id u .home r a ∧
      a.grant x.window x.node = some (live .retiring [granted .draining 1 0] 1 0, granted .draining 1 0) ∧
      a.link x.node = .fencing ∧ a.nodeExecuting x.node = 1 :=
  ⟨(noted_iff ..).2 rfl, by decide, by decide, by decide⟩

theorem witness_TransactionEndHandsOn_removes :
    let s := orphaned .retiring .draining (linked .fencing shared)
    let x := { running .write [⟨.home, 0, 1, .pending⟩] .home with tag := none }
    s.opOf 0 ⟨.write, 0, 1, [5], .transaction 0 .home⟩ [] x .home ∧
      (∀ o ∈ (x.afterOp .home true []).ops, o.outcome ≠ .pending) ∧
      s.grant x.window x.node = some (live .retiring [granted .draining 1 0] 1 0, granted .draining 1 0) ∧
      (∀ h ∈ (live .retiring [granted .draining 1 0] 1 0).grants, h.node = x.node) ∧
      s.link x.node = .fencing ∧ s.nodeExecuting x.node = 1 ∧ shared.link x.node ≠ .fencing := by
  unfold State.opOf
  decide
theorem witness_TransactionEndHandsOn_agree : (orphaned .retiring .draining (linked .fencing shared)).TagsAgree :=
  tagsAgree_of_check (by decide) (by decide) (by decide) (by decide) (by decide) (by decide)
theorem witness_TransactionEndHandsOn_engine :
    let s := writing (.migrating 0) (moving (.copying (job 0) true) (.waiting 0) [])
    s.grant 0 0 = some (live (.migrating 0) [granted .listed 1 0] 1 0, granted .listed 1 0) ∧
      s.engine.phase = .waiting 0 ∧ s.slot 0 = .copying (job 0) true ∧
      (∀ y ∈ s.transactions, y.id ≠ 0 → y.kind = .write → y.window = (job 0).window → y.chunk * 4096 ≠ (job 0).cursor) ∧
      ∃ y ∈ [{ running .write [] .old with id := 1 }],
        y.id ≠ 0 ∧ y.kind = .write ∧ y.window = (job 0).window ∧ y.chunk * 4096 = (job 0).cursor := by decide
theorem witness_TransactionEndHandsOn_drains :
    let old := writing (.migrating 0) (moving (.drainingOld (job 2097152)) .idle [])
    let new := writing (.migrating 0) (moving (.aborting (job 0) .byCommand) .idle [])
    old.slot 0 = .drainingOld (job 2097152) ∧ new.slot 0 = .aborting (job 0) .byCommand ∧
      new.engine.phase.copiesFor 0 = false ∧ (∀ y ∈ old.transactions, y.id ≠ 0 → y.touches ⟨0, 1⟩ = false) ∧
      ∃ y ∈ [{ running .read [⟨.old, 0, 1, .pending⟩] .old with id := 1 }], y.id ≠ 0 ∧ y.touches ⟨0, 1⟩ = true := by
  decide

theorem witness_ReadFaultCaptureReports :
    let s := { ready with captures := Table.put ready.captures 3 (some ⟨8, .write, 9, .rights⟩) }
    ready.portFree ∧ (taking .readFaultCapture [3] s).completing .readFaultCapture (resultSlots [3]) ∧
      3 < param (resultSlots [4]) 0 ∧ param (resultSlots [3]) 0 = (3 : NodeId).val ∧
      s.capture 3 = some ⟨8, .write, 9, .rights⟩ ∧ s.capture 0 = none := by decide

theorem witness_FaultCaptureRelease :
    let s := { ready with captures := Table.put ready.captures 3 (some ⟨8, .write, 9, .rights⟩) }
    (taking .releaseFaultCapture [3] s).completing .releaseFaultCapture (resultSlots [3]) ∧
      3 < param (resultSlots [4]) 0 ∧ s.capture 3 = some ⟨8, .write, 9, .rights⟩ ∧ s.capture 0 = none := by decide

theorem witness_HoldExpiryFaultsEntries :
    holding.resetHeld = false ∧ holding.HoldsBounded ∧ (∃ e ∈ holding.hold 0, e.expiry = 2000) ∧
      (∀ x ∈ holding.timers, 2000 ≤ x) ∧ (holding.tag 0 3).isSome ∧ holding.capture 0 = none ∧
      (holding.hold 0).filter (fun e => e.expiry == 2000) = entry .suspended 2000 :: [] := by
  refine ⟨by decide, ?_, by decide, by decide, by decide, by decide, by decide⟩
  unfold State.HoldsBounded
  decide
/-- The tag entry of a held request at node address 0. -/
def heldTag (k : Kind) : TagEntry :=
  { window := 0, rights := .readWrite, offset := 0, kind := k, addr := 0, len := 1, data := some [7], phase := .held }

/-- A WRITE of the chunk under copy held under tag 3, and a READ behind it under tag 4. -/
def queued : State :=
  { moving (.copying (job 0) true) (.reading 0) [] with
    windows := (inUse (live (.migrating 0) [granted .listed 0 2] 0 2)).windows
    holds := Table.put ready.holds 0 [entry .chunkBusy 2000, { entry .behind 2000 with tag := 4 }]
    tags := Table.put ready.tags 0 (Table.put (Table.put (Table.fill 32 none) 3 (some (heldTag .write))) 4
      (some (heldTag .read))) }

/-- The same queue when the copy is over: both requests may go. -/
def freed : State :=
  { queued with
    windows := (inUse (live .active [granted .listed 0 2] 0 2)).windows
    slots := ready.slots }

theorem test_abort_replays_held :
    let t := queued.enterAborting 0 .byCommand
    t.hold 0 = [] ∧ t.slot 0 = .aborting (job 0) .byCommand ∧ t.windowExecuting 0 = 2 := by decide

theorem witness_ReplayPassEvaluates_agree : queued.TagsAgree ∧ freed.TagsAgree :=
  ⟨tagsAgree_of_check (by decide) (by decide) (by decide) (by decide) (by decide) (by decide),
    tagsAgree_of_check (by decide) (by decide) (by decide) (by decide) (by decide) (by decide)⟩
theorem witness_ReplayPassEvaluates_inRange :
    queued.link 0 = .admitted ∧ ∀ e ∈ queued.hold 0, (queued.tag 0 e.tag).all (fun x =>
      (queued.entryAt 0 x.addr).all fun m => decide (x.addr + x.len ≤ m.grant.base + m.live.bytes)) = true := by decide
theorem witness_ReplayPassEvaluates_held :
    let m : MapEntry := ⟨0, live (.migrating 0) [granted .listed 0 2] 0 2, granted .listed 0 2⟩
    let t := (queued.replay 0).state
    queued.hold 0 = [entry .chunkBusy 2000] ++ { entry .behind 2000 with tag := 4 } :: [] ∧
      queued.tag 0 3 = some (heldTag .write) ∧ queued.tag 0 4 = some (heldTag .read) ∧ queued.entryAt 0 0 = some m ∧
      queued.replayFault 0 (heldTag .write) = none ∧ queued.slot 0 = .copying (job 0) true ∧
      (job 0).cursor = 0 / 4096 * 4096 ∧
      (∃ h ∈ t.hold 0, h.window = m.window ∧ h.chunk = 0 / 4096 ∧ ∃ b ∈ [entry .chunkBusy 2000], b.tag = h.tag) ∧
      (live .suspended [granted .listed 0 1] 0 1).state = .suspended := by decide
theorem witness_ReplayPassEvaluates_executes :
    let m : MapEntry := ⟨0, live .active [granted .listed 0 2] 0 2, granted .listed 0 2⟩
    let t := (freed.replay 0).state
    freed.hold 0 = [] ++ entry .chunkBusy 2000 :: [{ entry .behind 2000 with tag := 4 }] ∧
      freed.entryAt 0 0 = some m ∧ freed.replayFault 0 (heldTag .write) = none ∧ m.live.state ≠ .suspended ∧
      t.hold 0 = [] := by decide
theorem witness_ReplayPassEvaluates_faulted :
    let unmapped := { freed with maps := ready.maps }
    let lowered := freed.setWindow 0
      { generation := 0, life := some (live .active [{ granted .listed 0 2 with rights := .read }] 0 2) }
    unmapped.replayFault 0 (heldTag .read) = some .noWindow ∧
      lowered.replayFault 0 (heldTag .write) = some .rights := by decide

theorem witness_SuspensionCompletes_suspend :
    let s := taking .suspend [0, 0] shared
    let v := live .active [granted .listed 0 0] 0 0
    s.completing .suspend (resultSlots [0, 0]) ∧ s.names (resultSlots [0, 0]) 0 v ∧ v.state = .active ∧
      v.executing = 0 ∧ 0 < (live .active [granted .listed 1 0] 1 0).executing := by decide
theorem witness_SuspensionCompletes_resume :
    let s := taking .resume [0, 0] holding
    let v := live .suspended [granted .listed 0 1] 0 1
    s.completing .resume (resultSlots [0, 0]) ∧ s.names (resultSlots [0, 0]) 0 v ∧ v.state = .suspended ∧
      ∀ n, ∀ e ∈ shared.hold n, e.window ≠ 0 := by decide
theorem witness_SuspensionCompletes_agree :
    let s := taking .resume [0, 0] holding
    s.TagsAgree ∧ s.MapsOrdered ∧ s.CountsAgree :=
  ⟨tagsAgree_of_check (by decide) (by decide) (by decide) (by decide) (by decide) (by decide),
    mapsOrdered_of_check (by decide) (by decide) (by decide) (by decide) (by decide) (by decide),
    countsAgree_of_check (by decide) (by decide) (by decide) (by decide) (by decide)⟩

theorem witness_UnlistingWithdrawsGrant :
    let v := live .suspended [granted .listed 0 1] 0 1
    (holding.window 0).life = some v ∧ v.grant 0 = some (granted .listed 0 1) ∧ (granted .listed 0 1).executing = 0 ∧
      0 < (granted .listed 1 0).executing ∧ ∀ x ∈ v.grants, x.node = 0 := by decide

theorem witness_RevokeCompletes :
    let s := taking .revoke [0, 0, 0] shared
    let p := resultSlots [0, 0, 0]
    let v := live .active [granted .listed 0 0] 0 0
    s.completing .revoke p ∧ s.names p 0 v ∧ v.state ≠ .retiring ∧ param p 2 = (0 : NodeId).val ∧
      v.grant 0 = some (granted .listed 0 0) ∧ s.link 0 = .admitted ∧ (linked .fencing s).link 0 = .fencing ∧
      (linked .down s).link 0 ≠ .admitted ∧ (linked .down s).link 0 ≠ .fencing ∧
      (granted .draining 1 0).state = .draining ∧ (granted (.revoking 5 (some 7)) 0 0).state = .revoking 5 (some 7) ∧
      s.now < 7 ∧ v.grant 3 = none ∧ 3 < param (resultSlots [0, 0, 4]) 2 ∧ s.settings.revokeLimit ≠ 0 ∧
      ({ s.settings with revokeLimit := 0 } : Settings).revokeLimit = 0 := by decide

theorem witness_PendingRevocationEnds_number :
    timed.resetHeld = false ∧ timed.link 0 ≠ .down ∧ timed.noticeOf 0 0 = some 5 ∧
      ∀ w, timed.noticeOf 0 w ≠ some 6 := by decide
theorem witness_PendingRevocationEnds_distinct : timed.NoticesDistinct := by
  have h : ∀ n w, timed.noticeOf n w = if n = 0 ∧ w = 0 then some 5 else none := by decide
  intro n w x number hw hx
  rw [h] at hw hx
  split at hw <;> split at hx <;> simp_all

theorem witness_PendingRevocationEnds_deadline :
    let s := inUse (live .active [granted (.revoking 5 (some 7)) 0 0] 0 0)
    s.resetHeld = false ∧ s.deadlineOf 0 0 = some 7 ∧ (∀ x ∈ s.timers, 7 ≤ x) ∧ s.link 0 = .admitted ∧
      s.settings.fenceOnRevokeTimeout = false ∧ s.deadlineOf 0 1 = none := by decide

theorem witness_RetireCompletes :
    let s := taking .retire [0, 0] shared
    let v := live .active [granted .listed 0 0] 0 0
    s.completing .retire (resultSlots [0, 0]) ∧ s.names (resultSlots [0, 0]) 0 v ∧ v.state = .active ∧
      (live .suspended [] 0 0).state = .suspended ∧ (live .suspended [] 0 0).grants = [] ∧
      ∀ n, ∀ e ∈ s.hold n, e.window ≠ 0 := by decide
theorem witness_RetireCompletes_messages :
    let s := taking .retire [0, 0] holding
    s.TagsAgree ∧ s.HoldsBounded ∧ s.heldUnder 0 0 = [entry .suspended 2000] := by
  refine ⟨tagsAgree_of_check (by decide) (by decide) (by decide) (by decide) (by decide) (by decide), ?_, by decide⟩
  unfold State.HoldsBounded
  decide
theorem witness_RetireCompletes_grants :
    let v := live .active [granted .listed 0 0] 0 0
    v.grant 0 = some (granted .listed 0 0) ∧ v.grant 1 = none ∧ holding.link 0 = .admitted ∧
      (linked .fenced shared).link 0 = .fenced ∧ 0 < (granted .listed 1 0).executing ∧
      (granted (.revoking 5 none) 0 0).state = .revoking 5 none ∧ (granted .draining 1 0).state = .draining := by decide

theorem witness_MigrateCompletes_done :
    let s := taking .migrate [0, 0, 1, 2047] shared
    let p := resultSlots [0, 0, 1, 2047]
    let v := live .active [granted .listed 0 0] 0 0
    s.completing .migrate p ∧ s.names p 0 v ∧ v.state = .active ∧ s.slot 0 = .idle ∧
      (∀ i < (0 : SlotId), s.slot i ≠ .idle) ∧ param p 2 = 1 ∧ param p 3 + v.home.len ≤ s.granules ∧
      allocateExplicit ⟨2047, 1⟩ s.freeList = some [⟨1, 2046⟩] ∧
      firstFit v.home.len s.freeList = some (⟨1, 1⟩, [⟨2, 2046⟩]) ∧ s.engine.phase = .idle ∧
      (∀ i, (s.slot i).isCopying = false) ∧
      ∀ y ∈ s.transactions, y.kind = .write → y.window = 0 → y.chunk ≠ 0 := by decide
theorem witness_MigrateCompletes_waits :
    let s := executing .active (running .write [⟨.home, 0, 1, .pending⟩] .home)
      [⟨.write, 0, 1, [5], .transaction 0 .home⟩] shared
    ∃ y ∈ s.transactions, y.kind = .write ∧ y.window = 0 ∧ y.chunk = 0 := by decide
theorem witness_MigrateCompletes_refused :
    let full := { shared with slots := Table.fill 4 (.finished (job 0) .done) }
    1 < param (resultSlots [0, 0, 2]) 2 ∧ shared.granules < param (resultSlots [0, 0, 1, 2048]) 3 + 1 ∧
      (∀ j, full.slot j ≠ .idle) ∧ (∃ j, shared.slot j = .idle) ∧ firstFit 1 [] = none ∧
      allocateExplicit ⟨0, 1⟩ shared.freeList = none := by decide

theorem witness_TurnServesNextSlot :
    let s := moving (.copying (job 0) false) .idle []
    3 < 4 ∧ (0 : SlotId) = s.engine.last + Fin.ofNat 4 (3 + 1) ∧ s.slot 0 = .copying (job 0) false ∧
      (∀ i < 3, (s.slot (s.engine.last + Fin.ofNat 4 (i + 1))).isCopying = false) ∧
      ∀ x ∈ s.transactions, x.kind = .write → x.window = (job 0).window → x.chunk * 4096 ≠ (job 0).cursor := by decide
theorem witness_TurnServesNextSlot_pacing :
    let s := moving (.finished (job 0) .done) (.pacing 4) []
    s.resetHeld = false ∧ s.engine.phase = .pacing 4 ∧ (∀ x ∈ s.timers, 4 ≤ x) ∧
      ∀ j, (s.slot j).isCopying = false := by decide
theorem witness_TurnServesNextSlot_settings :
    ready.settings.copyPacing = 0 ∧ ({ ready.settings with copyPacing := 9 } : Settings).copyPacing ≠ 0 := by decide

theorem witness_CopyOperationsEnd_read :
    let s := moving (.copying (job 0) true) (.reading 0) [copyRead 0 (job 0)]
    s.resetHeld = false ∧ s.engine.phase = .reading 0 ∧ s.channel 0 = copyRead 0 (job 0) :: [] ∧
      (copyRead 0 (job 0)).issuer = .copy 0 ∧ (∀ i < (0 : ChannelId), ∀ x ∈ (s.channel i).head?, x.issuer ≠ .copy 0) ∧
      s.slot 0 = .copying (job 0) true ∧ (s.endOp 0 (copyRead 0 (job 0)) [] true).failed = true ∧
      (s.endOp 0 (copyRead 0 (job 0)) [] false).failed = false := by
  refine ⟨by decide, by decide, by decide, by decide, by decide, by decide, rfl, rfl⟩
theorem witness_CopyOperationsEnd_write :
    let s := moving (.copying (job 2093056) true) (.writing 0 [])
      [copyWrite 0 (job 2093056) []]
    s.engine.phase = .writing 0 [] ∧ s.channel 0 = copyWrite 0 (job 2093056) [] :: [] ∧
      (s.window (job 0).window).life = some (live (.migrating 0) [granted .listed 0 0] 0 0) ∧
      (job 2093056).cursor + 4096 = (job 2093056).source.len * 2097152 ∧
      (job 0).cursor + 4096 ≠ (job 0).source.len * 2097152 ∧ s.touching (job 2093056).source = 0 := by decide
theorem witness_CopyOperationsEnd_pacing :
    let s := { moving (.copying (job 0) true) (.writing 0 []) [copyWrite 0 (job 0) []] with
      settings := { Settings.reset with copyPacing := 9 } }
    s.settings.copyPacing ≠ 0 ∧ ready.settings.copyPacing = 0 ∧ ∀ i, i ≠ 0 → (s.slot i).isCopying = false := by decide
theorem witness_CopyOperationsEnd_touched :
    let x := running .write [⟨.old, 0, 1, .pending⟩] .old
    ({ shared with transactions := [x] } : State).touching (job 0).source ≠ 0 := by decide
theorem witness_CopyOperationsEnd_drain :
    let s := moving (.drainingOld (job 2097152)) .idle []
    s.slot 0 = .drainingOld (job 2097152) ∧
      (s.window (job 2097152).window).life = some (live (.migrating 0) [granted .listed 0 0] 0 0) ∧
      s.touching (job 2097152).source = 0 ∧ (writing (.migrating 0) s).touching (job 2097152).source ≠ 0 := by decide
theorem witness_CopyOperationsEnd_aborting :
    (moving (.aborting (job 0) .byCommand) (.reading 0) [copyRead 0 (job 0)]).slot 0 =
      .aborting (job 0) .byCommand := by decide

theorem witness_JobsAbort_command :
    let s := taking .abortJob [0] (moving (.copying (job 0) true) (.reading 0) [copyRead 0 (job 0)])
    s.completing .abortJob (resultSlots [0]) ∧ param (resultSlots [3]) 0 = (3 : SlotId).val ∧
      3 < param (resultSlots [4]) 0 ∧ s.slot 3 = .idle ∧ s.slot 0 = .copying (job 0) true := by decide
theorem witness_JobsAbort_refused :
    (moving (.drainingOld (job 0)) .idle []).slot 0 = .drainingOld (job 0) ∧
      (moving (.finished (job 0) .done) .idle []).slot 0 = .finished (job 0) .done ∧
      (moving (.aborting (job 0) .byCommand) .idle []).slot 0 = .aborting (job 0) .byCommand := by decide

/-- A mirrored write whose TARGET operation is at the head of channel 0. -/
def mirroring : State :=
  executing (.migrating 0)
    (running .write [⟨.old, 0, 1, .ok⟩, ⟨.target, 2097152, 1, .pending⟩] .old)
    [⟨.write, 2097152, 1, [5], .transaction 0 .target⟩] (moving (.copying (job 4096) true) (.reading 0) [])

theorem witness_JobsAbort_mirror :
    let x := running .write [⟨.old, 0, 1, .ok⟩, ⟨.target, 2097152, 1, .pending⟩] .old
    mirroring.resetHeld = false ∧ mirroring.channel 0 = ⟨.write, 2097152, 1, [5], .transaction 0 .target⟩ :: [] ∧
      x ∈ mirroring.transactions ∧ x.mirrored = true ∧
      (mirroring.window x.window).life = some (live (.migrating 0) [granted .listed 1 0] 1 0) ∧
      mirroring.slot 0 = .copying (job 4096) true := by decide
theorem witness_TransactionOperationEnds_aborts :
    let x := running .write [⟨.old, 0, 1, .ok⟩, ⟨.target, 2097152, 1, .pending⟩] .old
    mirroring.opOf 0 ⟨.write, 2097152, 1, [5], .transaction 0 .target⟩ [] x .target ∧
      (mirroring.endOp 0 ⟨.write, 2097152, 1, [5], .transaction 0 .target⟩ [] true).failed = true ∧
      (x.afterOp .target true []).mirrored = true ∧ (∀ o ∈ (x.afterOp .target true []).ops, o.outcome ≠ .pending) ∧
      x.tag = some 3 ∧ mirroring.link x.node ≠ .down ∧ (x.afterOp .target true []).failed = false := by
  unfold State.opOf
  decide
theorem witness_TransactionEndHandsOn_aborts :
    let r := mirroring.endOp 0 ⟨.write, 2097152, 1, [5], .transaction 0 .target⟩ [] true
    let u := (running .write [⟨.old, 0, 1, .ok⟩, ⟨.target, 2097152, 1, .pending⟩] .old).afterOp .target true []
    let a := (notedPlain mirroring 0 u r).mirrorFailed 0
    a.grant 0 0 = some (live (.migrating 0) [granted .listed 1 0] 1 0, granted .listed 1 0) ∧
      a.slot 0 = .aborting (job 4096) .mirrorWriteError := by decide
theorem test_mirror_write_fails :
    let t := after (.transactionOperationEnd 0 true) mirroring
    (t.port 0).outbound = [.completion 3 (.ok [])] ∧ t.slot 0 = .aborting (job 4096) .mirrorWriteError ∧
      t.capture 0 = none ∧ t.tag 0 3 = none := by decide
theorem witness_JobsAbort_mirror_agree : mirroring.TagsAgree :=
  tagsAgree_of_check (by decide) (by decide) (by decide) (by decide) (by decide) (by decide)
theorem witness_JobsAbort_drain :
    let s := moving (.aborting (job 0) .byCommand) .idle []
    (s.window (job 0).window).life = some (live (.migrating 0) [granted .listed 0 0] 0 0) ∧
      s.touching (job 0).target = 0 ∧ s.engine.phase.copiesFor 0 = false ∧ mirroring.touching (job 0).target ≠ 0 ∧
      mirroring.engine.phase.copiesFor 0 = true := by decide

theorem witness_JobsAbort_entry :
    let s := moving (.copying (job 0) true) (.waiting 0) []
    (s.window 0).life = some (live (.migrating 0) [granted .listed 0 0] 0 0) ∧ s.slot 0 = .copying (job 0) true ∧
      s.engine.phase = .waiting 0 ∧ (moving (.copying (job 0) false) (.reading 1) []).engine.phase ≠ .waiting 0 ∧
      ((moving (.drainingOld (job 0)) .idle []).slot 0).isCopying = false ∧
      (shared.window 0).life = some (live .active [granted .listed 0 0] 0 0) := by decide
theorem test_abort_of_waiting_slot :
    let s := moving (.copying (job 0) true) (.waiting 0) []
    let two := s.setSlot 1 (.copying { job 0 with window := 1, source := ⟨2, 1⟩, target := ⟨3, 1⟩ } false)
    (s.enterAborting 0 .byCommand).engine.phase = .idle ∧
      (s.enterAborting 0 .byCommand).slot 0 = .finished (job 0) (.aborted .byCommand) ∧
      (two.enterAborting 0 .byCommand).engine = { phase := .reading 1, last := 1 } := by decide

theorem witness_QueryJobReports :
    let s := taking .queryJob [0] (moving (.copying (job 0) true) (.reading 0) [])
    s.completing .queryJob (resultSlots [0]) ∧ param (resultSlots [3]) 0 = (3 : SlotId).val ∧
      3 < param (resultSlots [4]) 0 ∧ (s.slot 0).job = some (job 0) ∧ (s.slot 3).job = none := by decide

theorem witness_BootInstallCompletes :
    loading.resetHeld = false ∧ loading.booting = true ∧ ready.booting = false ∧
      bootLoad loading.bootEnable loading.granules image.encode = .ok image ∧
      bootLoad false 4096 [] = .error ⟨.notEnabled, none⟩ ∧ loading.freeList = [⟨0, loading.granules⟩] ∧
      image.windows[(1 : WindowId).val]? = some ⟨16, 8, [⟨1, 0x2000000, 1⟩, ⟨3, 0, 2⟩]⟩ ∧
      image.windows.length ≤ (2 : WindowId).val := by
  refine ⟨by decide, by decide, by decide, rfl, rfl, by decide, by decide, by decide⟩
theorem witness_BootInstallCompletes_owned : loading.Owned where
  partition g := by
    have h : loading.extents = [⟨0, 4096⟩] := by decide
    rw [h, show loading.granules = 4096 by decide]
    by_cases hg : g < 4096 <;> simp [Extent.covers, hg]
  ordered := by unfold FreeListOrdered; decide
  slots j := by
    have h : loading.slot j = .idle := by revert j; decide
    rw [h]
    trivial
  migrating w v j h := by
    have h0 : ∀ w, (loading.window w).life = none := by decide
    rw [h0 w] at h
    cases h
  homes w v h := by
    have h0 : ∀ w, (loading.window w).life = none := by decide
    rw [h0 w] at h
    cases h
  boot := by unfold State.bootClean; decide

theorem owned_holding : holding.Owned where
  partition g := by
    have h : holding.extents = [⟨1, 2047⟩, ⟨0, 1⟩] := by decide
    rw [h, show holding.granules = 2048 by decide]
    rcases Nat.eq_zero_or_pos g with hg | hg
    · subst hg
      decide
    · by_cases h2 : g < 2048 <;> simp [Extent.covers] <;> grind
  ordered := by unfold FreeListOrdered; decide
  slots j := by
    have h : holding.slot j = .idle := by revert j; decide
    rw [h]
    trivial
  migrating w v j h hj := by
    have h0 : ∀ w, (holding.window w).life.all (fun v => v.state == .suspended) = true := by decide
    have h1 := h0 w
    rw [h] at h1
    simp [hj] at h1
  homes w v h := by
    have h0 : ∀ w, (holding.window w).life.all (fun v => decide (1 ≤ v.home.len)) = true := by decide
    have h1 := h0 w
    rw [h] at h1
    simpa using h1
  boot := by unfold State.bootClean; decide

theorem witness_BootImageReadsBack :
    image.fits ∧ leValue [0, 0] ≠ checksum image.body ∧ [(0x5A : Byte)].length < 2 ∧ 8 < (9 : Byte).toNat := by
  unfold BootImage.fits
  decide
/-- An image of the settings of section 10.6 with given windows. -/
def imageOf (ws : List ImageWindow) : BootImage := { image with windows := ws }

theorem witness_BootImageReadsBack_points :
    (imageOf [⟨0, 16, []⟩]).fits ∧ (8 : Byte).toNat ≤ 8 ∧ (imageOf [⟨0, 16, []⟩]).windows.length < (8 : Byte).toNat ∧
      (imageOf [⟨0, 16, []⟩]).windows.length = (1 : Byte).toNat ∧ [(0 : Byte)].length < 2 ∧
      (List.replicate 6 (0 : Byte)).length < 7 ∧ 4 < (5 : Byte).toNat ∧ (4 : Byte).toNat ≤ 4 ∧
      (List.replicate 27 (0 : Byte)).length < 7 * (4 : Byte).toNat := by
  unfold BootImage.fits
  decide

theorem witness_BootImageIsValidated_settings :
    255 < ({ image with copyPacing := 256 } : BootImage).copyPacing ∧ ({ image with copyPacing := 256 } : BootImage).fits ∧
      image.copyPacing ≤ 255 ∧ image.policy ≤ 1 ∧ image.mask ≤ 15 := by
  unfold BootImage.fits
  decide
theorem witness_BootImageIsValidated_bad :
    (imageOf [⟨0, 16, []⟩, ⟨15, 1, []⟩]).fits ∧
      (imageOf [⟨0, 16, []⟩, ⟨15, 1, []⟩]).windows = [⟨0, 16, []⟩] ++ ⟨15, 1, []⟩ :: [] ∧
      (⟨0, 16, []⟩ : ImageWindow).passes 4096 [] ∧ ¬(⟨15, 1, []⟩ : ImageWindow).passes 4096 [⟨0, 16, []⟩] := by
  unfold BootImage.fits ImageWindow.passes
  decide
theorem witness_BootImageIsValidated_good :
    image.fits ∧ ∀ before y after, image.windows = before ++ y :: after → y.passes 4096 before := by
  refine ⟨by unfold BootImage.fits; decide, ?_⟩
  intro before y after h
  match before, h with
  | [], h =>
    obtain ⟨rfl, -⟩ := List.cons.inj h
    unfold ImageWindow.passes
    decide
  | [a], h =>
    obtain ⟨ha, h⟩ := List.cons.inj h
    obtain ⟨rfl, -⟩ := List.cons.inj h
    subst ha
    unfold ImageWindow.passes
    decide
  | a :: b :: rest, h =>
    obtain ⟨-, h⟩ := List.cons.inj h
    obtain ⟨-, h⟩ := List.cons.inj h
    simp at h

theorem witness_StepKeepsPoolCanonical : ready.PoolCanonical ∧ ∃ t, step ready = .next t :=
  ⟨by unfold State.PoolCanonical; decide, _, rfl⟩
theorem witness_StepKeepsHoldsBounded : holding.HoldsBounded ∧ ∃ t, step holding = .next t :=
  ⟨by unfold State.HoldsBounded; decide, _, rfl⟩
theorem witness_StepKeepsTagsAgree : holding.TagsAgree ∧ ∃ t, step holding = .next t :=
  ⟨tagsAgree_holding, _, rfl⟩
theorem witness_StepKeepsGranulesOwned : loading.Owned ∧ ∃ t, step loading = .next t :=
  ⟨witness_BootInstallCompletes_owned, _, rfl⟩
theorem witness_StepKeepsMapsOrdered : holding.Owned ∧ holding.MapsOrdered ∧ ∃ t, step holding = .next t :=
  ⟨owned_holding, mapsOrdered_of_check (by decide) (by decide) (by decide) (by decide) (by decide) (by decide), _, rfl⟩
theorem witness_StepKeepsCountsAgree :
    holding.Owned ∧ holding.TagsAgree ∧ holding.MapsOrdered ∧ holding.CountsAgree ∧ ∃ t, step holding = .next t :=
  ⟨owned_holding, tagsAgree_holding, witness_StepKeepsMapsOrdered.2.1,
    countsAgree_of_check (by decide) (by decide) (by decide) (by decide) (by decide), _, rfl⟩
theorem witness_StepKeepsNoticesDistinct : timed.NoticesDistinct ∧ ∃ t, step timed = .next t :=
  ⟨witness_PendingRevocationEnds_distinct, _, rfl⟩

end Sys2Proof.Tests
end

section
/-! SUPPORT. The ledger: what node maps, grant lists and counts are judged by. -/

namespace Sys2Proof.Machine

/-! ### Grants as maps and counts see them -/

/-- A grant without its rights, its state only as far as DRAINING is told from the rest. -/
def GrantRecord.account (g : GrantRecord) : GrantRecord :=
  { g with rights := .read, state := if g.state = .draining then .draining else .listed }

/-- A window in use as maps and counts see it: its length, its counts and its grants. -/
def Live.account (v : Live) : Live :=
  { v with
    state := .active
    home := ⟨0, v.home.len⟩
    grants := v.grants.map GrantRecord.account
    quietPending := false }

/-- A change that leaves every grant's node as it was acts on the grant of each node. -/
theorem find_map_node {F : GrantRecord → GrantRecord} (hF : ∀ g, (F g).node = g.node) (l : List GrantRecord)
    (n : NodeId) : (l.map F).find? (fun g => g.node == n) = (l.find? fun g => g.node == n).map F := by
  rw [List.find?_map]
  congr 2
  funext g
  exact congrArg (· == n) (hF g)

theorem grant_account (v : Live) (n : NodeId) : v.account.grant n = (v.grant n).map GrantRecord.account :=
  find_map_node (F := GrantRecord.account) (fun _ => rfl) ..

theorem grant_shape (v : Live) (n : NodeId) : v.shape.grant n = (v.grant n).map GrantRecord.shape :=
  find_map_node (F := GrantRecord.shape) (fun _ => rfl) ..

theorem grant_updateGrant (v : Live) (n m : NodeId) (f : GrantRecord → GrantRecord) (hf : ∀ g, (f g).node = g.node) :
    (v.updateGrant n f).grant m = if m = n then (v.grant m).map f else v.grant m := by
  have h : ∀ g : GrantRecord, (if g.node = n then f g else g).node = g.node := by
    intro g
    split
    · exact hf g
    · rfl
  refine (find_map_node h v.grants m).trans ?_
  change (v.grant m).map _ = _
  cases hg : v.grant m with
  | none => simp
  | some g =>
    have hn : g.node = m := by simpa using List.find?_some hg
    by_cases hm : m = n <;> simp [hn, hm]

theorem grant_eq_none_iff {v : Live} {n : NodeId} : v.grant n = none ↔ ∀ g ∈ v.grants, g.node ≠ n := by
  simp [Live.grant]

/-- A grant is found exactly when its window is in use and lists it. -/
theorem grant_eq_some_iff {s : State} {w : WindowId} {n : NodeId} {v : Live} {g : GrantRecord} :
    s.grant w n = some (v, g) ↔ (s.window w).life = some v ∧ v.grant n = some g := by
  unfold State.grant
  cases (s.window w).life with
  | none => simp
  | some u =>
    simp only [Option.map_eq_some_iff, Prod.mk.injEq, Option.some.injEq]
    constructor
    · rintro ⟨a, ha, rfl, rfl⟩
      exact ⟨rfl, ha⟩
    · rintro ⟨rfl, hg⟩
      exact ⟨g, hg, rfl, rfl⟩

theorem grant_of_life {s : State} {w : WindowId} {v : Live} (h : (s.window w).life = some v) (n : NodeId) :
    s.grant w n = (v.grant n).map fun g => (v, g) := by
  simp [State.grant, h]

theorem grant_of_free {s : State} {w : WindowId} (h : (s.window w).life = none) (n : NodeId) : s.grant w n = none := by
  simp [State.grant, h]

/-! ### Spans -/

/-- The node range of a listed grant: its base and its length in bytes; a DRAINING grant has none (R38, R41). -/
def Live.span (v : Live) (n : NodeId) : Option (Nat × Nat) :=
  (v.grant n).bind fun g => if g.state = .draining then none else some (g.base, v.bytes)

/-- The node range of a node's listed grant of a window. -/
def State.span (s : State) (n : NodeId) (w : WindowId) : Option (Nat × Nat) := (s.window w).life.bind fun v => v.span n

/-- Whether a window's grants stand by node number, at most one for each (R13). -/
def Live.rises (v : Live) : Prop := v.grants.Pairwise fun g h => g.node < h.node

theorem span_account (v : Live) (n : NodeId) : v.account.span n = v.span n := by
  simp only [Live.span, grant_account]
  cases v.grant n with
  | none => rfl
  | some g =>
    by_cases h : g.state = .draining <;> simp [GrantRecord.account, Live.account, Live.bytes, h]

theorem span_shape (v : Live) (n : NodeId) : v.shape.span n = v.span n := by
  simp only [Live.span, grant_shape]
  cases v.grant n <;> rfl

theorem rises_account (v : Live) : v.account.rises ↔ v.rises := by
  simp only [Live.rises, Live.account, List.pairwise_map]
  rfl

theorem rises_shape (v : Live) : v.shape.rises ↔ v.rises := by
  simp only [Live.rises, Live.shape, List.pairwise_map]
  rfl

theorem span_of_life {s : State} {w : WindowId} {v : Live} (h : (s.window w).life = some v) (n : NodeId) :
    s.span n w = v.span n := by
  simp [State.span, h]

theorem span_of_free {s : State} {w : WindowId} (h : (s.window w).life = none) (n : NodeId) : s.span n w = none := by
  simp [State.span, h]

/-- A span is that of a grant that stands and is not DRAINING. -/
theorem span_eq_some_iff {s : State} {n : NodeId} {w : WindowId} {b k : Nat} :
    s.span n w = some (b, k) ↔
      ∃ v g, s.grant w n = some (v, g) ∧ g.state ≠ .draining ∧ g.base = b ∧ v.bytes = k := by
  simp only [State.span, Live.span, grant_eq_some_iff, Option.bind_eq_some_iff, Option.ite_none_left_eq_some,
    Option.some.injEq, Prod.mk.injEq]
  constructor
  · rintro ⟨v, hv, g, hg, hd, hb, hk⟩
    exact ⟨v, g, ⟨hv, hg⟩, hd, hb, hk⟩
  · rintro ⟨v, g, ⟨hv, hg⟩, hd, hb, hk⟩
    exact ⟨v, hv, g, hg, hd, hb, hk⟩

theorem span_isSome_iff {s : State} {n : NodeId} {w : WindowId} :
    (s.span n w).isSome ↔ ∃ v g, s.grant w n = some (v, g) ∧ g.state ≠ .draining := by
  rw [Option.isSome_iff_exists]
  constructor
  · rintro ⟨⟨b, k⟩, h⟩
    obtain ⟨v, g, hg, hd, -⟩ := span_eq_some_iff.1 h
    exact ⟨v, g, hg, hd⟩
  · rintro ⟨v, g, hg, hd⟩
    exact ⟨_, span_eq_some_iff.2 ⟨v, g, hg, hd, rfl, rfl⟩⟩

theorem span_of_shape {s t : State} {w : WindowId} (h : t.shape w = s.shape w) (n : NodeId) :
    t.span n w = s.span n w := by
  have hl : (t.window w).life.map Live.shape = (s.window w).life.map Live.shape := congrArg Prod.snd h
  have : ∀ o : Option Live, (o.bind fun v => v.span n) = (o.map Live.shape).bind fun v => v.span n := by
    intro o
    cases o with
    | none => rfl
    | some v => exact (span_shape v n).symm
  rw [State.span, State.span, this, hl, ← this]

/-! ### The ledger -/

/-- Every window as maps and counts see it. -/
def State.accounts (s : State) (w : WindowId) : Option Live := (s.window w).life.map Live.account

/-- What maps and counts are judged by: the windows as they see them, the node maps, the hold queues, the tag tables and
the transaction records. -/
structure Ledger where
  lives : WindowId → Option Live
  maps : Vector (List WindowId) 4
  holds : Vector (List HoldEntry) 4
  tags : Vector (Vector (Option TagEntry) 32) 4
  transactions : List Transaction
  nextTransaction : Nat

/-- The ledger of a state. -/
def State.ledger (s : State) : Ledger :=
  { lives := s.accounts
    maps := s.maps
    holds := s.holds
    tags := s.tags
    transactions := s.transactions
    nextTransaction := s.nextTransaction }

section SameAccounts

variable {s t : State} (h : t.accounts = s.accounts)
include h

/-- A window in use is in use in every state of the same accounts, with the same account. -/
theorem life_of_accounts {w : WindowId} {v : Live} (hv : (t.window w).life = some v) :
    ∃ u, (s.window w).life = some u ∧ u.account = v.account := by
  have hw : (t.window w).life.map Live.account = (s.window w).life.map Live.account := congrFun h w
  rw [hv] at hw
  exact Option.map_eq_some_iff.1 hw.symm

theorem span_of_accounts (n : NodeId) (w : WindowId) : t.span n w = s.span n w := by
  have hacc : ∀ u : State, u.span n w = (u.accounts w).bind fun v => v.span n := by
    intro u
    simp only [State.span, State.accounts]
    cases (u.window w).life with
    | none => rfl
    | some v => exact (span_account v n).symm
  rw [hacc, hacc, h]

theorem grant_isSome_of_accounts (w : WindowId) (n : NodeId) : (t.grant w n).isSome = (s.grant w n).isSome := by
  have hacc : ∀ u : State, (u.grant w n).isSome = ((u.accounts w).bind fun v => v.grant n).isSome := by
    intro u
    simp only [State.accounts]
    cases hu : (u.window w).life with
    | none => simp [grant_of_free hu]
    | some v => simp [grant_of_life hu, grant_account]
  rw [hacc, hacc, h]

end SameAccounts

theorem accounts_of_windows {s t : State} (h : t.windows = s.windows) : t.accounts = s.accounts := by
  funext w
  simp only [State.accounts, State.window, h]

section SameLedger

variable {s t : State} (h : t.ledger = s.ledger)
include h

theorem accounts_of_ledger : t.accounts = s.accounts := congrArg Ledger.lives h

theorem map_of_ledger (n : NodeId) : t.map n = s.map n := congrArg (fun l : Ledger => Table.get l.maps n) h

theorem hold_of_ledger : t.hold = s.hold := funext fun n => congrArg (fun l : Ledger => Table.get l.holds n) h

theorem tag_of_ledger (n : NodeId) (u : Tag) : t.tag n u = s.tag n u :=
  congrArg (fun l : Ledger => Table.get (Table.get l.tags n) u) h

theorem transactions_of_ledger : t.transactions = s.transactions := congrArg Ledger.transactions h

theorem nextTransaction_of_ledger : t.nextTransaction = s.nextTransaction := congrArg Ledger.nextTransaction h

end SameLedger

/-! ### What leaves the ledger as it was -/

section Frames

variable (s : State)

@[simp] theorem setPort_ledger (n : NodeId) (p : Port) : (s.setPort n p).ledger = s.ledger := rfl
@[simp] theorem setLink_ledger (n : NodeId) (l : LinkState) : (s.setLink n l).ledger = s.ledger := rfl
@[simp] theorem setCapture_ledger (n : NodeId) (c : Option Capture) : (s.setCapture n c).ledger = s.ledger := rfl
@[simp] theorem setSlot_ledger (j : SlotId) (t : Slot) : (s.setSlot j t).ledger = s.ledger := rfl
@[simp] theorem setPhase_ledger (p : EnginePhase) : (s.setPhase p).ledger = s.ledger := rfl
@[simp] theorem setReasons_ledger (i : Fin 73) (r : BitVec 6) : (s.setReasons i r).ledger = s.ledger := rfl
@[simp] theorem raise_ledger (f : Flag) : (s.raise f).ledger = s.ledger := rfl
@[simp] theorem release_ledger (e : Extent) : (s.release e).ledger = s.ledger := rfl
@[simp] theorem issue_ledger (op : PoolOp) : (s.issue op).ledger = s.ledger := rfl
@[simp] theorem issueCopyRead_ledger (j : SlotId) (job : Job) : (s.issueCopyRead j job).ledger = s.ledger := rfl
@[simp] theorem issueCopyWrite_ledger (j : SlotId) (job : Job) (data : List Byte) :
    (s.issueCopyWrite j job data).ledger = s.ledger := rfl
@[simp] theorem clearOutbound_ledger (n : NodeId) : (s.clearOutbound n).ledger = s.ledger := rfl
@[simp] theorem updateStanding_ledger (n : NodeId) : (s.updateStanding n).ledger = s.ledger := rfl
@[simp] theorem endOp_ledger (c : ChannelId) (op : PoolOp) (rest : List PoolOp) (f : Bool) :
    (s.endOp c op rest f).state.ledger = s.ledger := rfl

@[simp] theorem send_ledger (n : NodeId) (m : Message) : (s.send n m).ledger = s.ledger := by
  unfold State.send
  split <;> rfl

@[simp] theorem captureFault_ledger (n : NodeId) (c : Capture) : (s.captureFault n c).ledger = s.ledger := by
  unfold State.captureFault
  split <;> rfl

@[simp] theorem sendFault_ledger (n : NodeId) (c : Capture) : (s.sendFault n c).ledger = s.ledger := by
  simp [State.sendFault]

@[simp] theorem endFenceDrain_ledger (n : NodeId) : (s.endFenceDrain n).ledger = s.ledger := by
  unfold State.endFenceDrain
  split <;> rfl

@[simp] theorem recordIdentity_ledger (n : NodeId) (identity : Word) :
    (s.recordIdentity n identity).ledger = s.ledger := by
  simp only [State.recordIdentity, setPort_ledger]
  split
  · rfl
  · split <;> rfl

@[simp] theorem malformed_ledger (n : NodeId) : (s.malformed n).ledger = s.ledger := by
  unfold State.malformed
  split <;> rfl

@[simp] theorem decidePort_ledger (n : NodeId) : (s.decidePort n).ledger = s.ledger := by
  unfold State.decidePort
  split
  · simp only []
    split <;> simp
  · rfl

@[simp] theorem updateLive_maps (w : WindowId) (f : Live → Live) : (s.updateLive w f).maps = s.maps := by
  unfold State.updateLive
  split <;> rfl

@[simp] theorem updateLive_holds (w : WindowId) (f : Live → Live) : (s.updateLive w f).holds = s.holds := by
  unfold State.updateLive
  split <;> rfl

@[simp] theorem updateLive_tags (w : WindowId) (f : Live → Live) : (s.updateLive w f).tags = s.tags := by
  unfold State.updateLive
  split <;> rfl

@[simp] theorem updateLive_transactions (w : WindowId) (f : Live → Live) :
    (s.updateLive w f).transactions = s.transactions := by
  unfold State.updateLive
  split <;> rfl

@[simp] theorem updateLive_nextTransaction (w : WindowId) (f : Live → Live) :
    (s.updateLive w f).nextTransaction = s.nextTransaction := by
  unfold State.updateLive
  split <;> rfl

/-- An update of one window gives the same windows wherever the windows are the same. -/
theorem updateLive_windows {s t : State} (h : t.windows = s.windows) (w : WindowId) (f : Live → Live) :
    (t.updateLive w f).windows = (s.updateLive w f).windows := by
  have hw : t.window w = s.window w := congrArg (Table.get · w) h
  unfold State.updateLive
  rw [hw]
  split
  · exact h
  · simp only [State.setWindow, h]

theorem setTag_self {n : NodeId} {t : Tag} {e : Option TagEntry} (h : s.tag n t = e) : s.setTag n t e = s := by
  subst h
  simp [State.setTag, State.tag]

/-- A faulted tag is free; nothing else of the ledger changes (R91). -/
theorem faultTag_ledger (n : NodeId) (t : Tag) (r : FaultReason) :
    (s.faultTag n t r).ledger = (s.setTag n t none).ledger := by
  unfold State.faultTag
  split
  · rename_i h
    rw [setTag_self s h]
  · rw [sendFault_ledger]

theorem setTag_ledger_congr {s t : State} (h : t.ledger = s.ledger) (n : NodeId) (u : Tag) (e : Option TagEntry) :
    (t.setTag n u e).ledger = (s.setTag n u e).ledger := by
  simp only [State.ledger, Ledger.mk.injEq, State.setTag] at h ⊢
  obtain ⟨h1, h2, h3, h4, h5, h6⟩ := h
  exact ⟨h1, h2, h3, by rw [h4], h5, h6⟩

theorem updateLive_ledger_congr {s t : State} (hw : t.windows = s.windows) (h : t.ledger = s.ledger) (w : WindowId)
    (f : Live → Live) : (t.updateLive w f).ledger = (s.updateLive w f).ledger := by
  simp only [State.ledger, Ledger.mk.injEq, updateLive_maps, updateLive_holds, updateLive_tags,
    updateLive_transactions, updateLive_nextTransaction] at h ⊢
  exact ⟨accounts_of_windows (updateLive_windows hw w f), h.2⟩

theorem foldl_issueFor_ledger (q : Request) (id : Nat) (ops : List TransactionOp) :
    (ops.foldl (State.issueFor q id) s).ledger = s.ledger := by
  induction ops generalizing s with
  | nil => rfl
  | cons o ops ih => exact (ih _).trans (issue_ledger ..)

/-- A window that keeps its account keeps the ledger. -/
theorem updateLive_ledger {w : WindowId} {f : Live → Live}
    (hf : ∀ v, (s.window w).life = some v → (f v).account = v.account) : (s.updateLive w f).ledger = s.ledger := by
  unfold State.updateLive
  split
  · rfl
  · rename_i v hv
    simp only [State.ledger, setWindow_maps, setWindow_holds, setWindow_tags, setWindow_transactions,
      setWindow_nextTransaction, Ledger.mk.injEq, and_true]
    funext x
    rw [State.accounts, window_setWindow]
    split
    · rename_i hx
      subst hx
      simp [State.accounts, hv, hf v hv]
    · rfl

/-- A change of rights or of a state other than DRAINING keeps a window's account. -/
theorem account_updateGrant (v : Live) (n : NodeId) (f : GrantRecord → GrantRecord)
    (hf : ∀ g ∈ v.grants, g.node = n → (f g).account = g.account) : (v.updateGrant n f).account = v.account := by
  simp only [Live.account, Live.updateGrant, List.map_map]
  congr 1
  refine List.map_congr_left fun g hg => ?_
  simp only [Function.comp]
  split
  · rename_i hn
    exact hf g hg hn
  · rfl

@[simp] theorem suspend_ledger (w : WindowId) (v : Live) : (s.suspend w v).ledger = s.ledger := by
  unfold State.suspend
  simp only []
  split
  · rw [raise_ledger]
    exact updateLive_ledger _ fun _ _ => rfl
  · exact updateLive_ledger _ fun _ _ => rfl

theorem account_endMigration (j : SlotId) (v : Live) : (v.endMigration j).account = v.account := by
  unfold Live.endMigration
  split <;> rfl

@[simp] theorem readOrWait_ledger (j : SlotId) (job : Job) : (s.readOrWait j job).ledger = s.ledger := by
  unfold State.readOrWait
  split <;> rfl

@[simp] theorem startTurn_ledger : s.startTurn.ledger = s.ledger := by
  unfold State.startTurn
  split
  · rfl
  · split
    · rw [readOrWait_ledger]
      rfl
    all_goals rfl

@[simp] theorem endTurn_ledger : s.endTurn.ledger = s.ledger := by
  unfold State.endTurn
  split <;> simp

@[simp] theorem endWaiting_ledger (j : SlotId) : (s.endWaiting j).ledger = s.ledger := by
  unfold State.endWaiting
  split <;> simp

@[simp] theorem resumeWaiting_ledger (j : SlotId) : (s.resumeWaiting j).ledger = s.ledger := by
  unfold State.resumeWaiting
  split
  · split
    · simp
    all_goals rfl
  · rfl

@[simp] theorem finish_ledger (j : SlotId) (job : Job) (o : JobOutcome) (e : Extent) (f : Flag) :
    (s.finish j job o e f).ledger = s.ledger := by
  rw [State.finish, raise_ledger, updateLive_ledger _ fun _ _ => account_endMigration ..]
  rfl

@[simp] theorem lookDrain_ledger (j : SlotId) : (s.lookDrain j).ledger = s.ledger := by
  unfold State.lookDrain
  split
  · split <;> simp
  · split <;> simp
  all_goals rfl

@[simp] theorem tellEngine_ledger (w : WindowId) : (s.tellEngine w).ledger = s.ledger := by
  unfold State.tellEngine
  split
  · rfl
  · split
    · simp
    all_goals rfl

@[simp] theorem tellDirectory_ledger (w : WindowId) : (s.tellDirectory w).ledger = s.ledger := by
  unfold State.tellDirectory
  split
  · rfl
  · split
    · rw [raise_ledger]
      exact updateLive_ledger _ fun _ _ => rfl
    · rfl

@[simp] theorem endAbortedTurn_ledger (j : SlotId) : (s.endAbortedTurn j).ledger = s.ledger := by
  simp [State.endAbortedTurn]

@[simp] theorem migrate_ledger (w : WindowId) (v : Live) (j : SlotId) (e : Extent) (free : List Extent) :
    (s.migrate w v j e free).ledger = s.ledger := by
  simp only [State.migrate]
  split
  · rw [startTurn_ledger]
    exact updateLive_ledger _ fun _ _ => rfl
  · exact updateLive_ledger _ fun _ _ => rfl

@[simp] theorem releaseSlot_ledger (j : SlotId) : (s.releaseSlot j).ledger = s.ledger := by
  unfold State.releaseSlot
  split <;> rfl

@[simp] theorem ackSource_ledger (i : Fin 73) (named : BitVec 6) : (s.ackSource i named).ledger = s.ledger := by
  simp only [State.ackSource]
  split <;> simp

@[simp] theorem writeControl_ledger (value : Word) : (s.writeControl value).ledger = s.ledger := by
  unfold State.writeControl State.softReset State.abandonCommand
  split
  · split <;> rfl
  · rfl

@[simp] theorem writeCommand_ledger (code : Word) : (s.writeCommand code).ledger = s.ledger := by
  unfold State.writeCommand
  split <;> rfl

@[simp] theorem writeParam_ledger (k : Fin 8) (value : Word) : (s.writeParam k value).ledger = s.ledger := by
  unfold State.writeParam
  split <;> rfl

@[simp] theorem writeSlot_ledger (i : Fin 16) (value : Word) : (s.writeSlot i value).ledger = s.ledger := by
  unfold State.writeSlot
  split <;> simp

@[simp] theorem tick_ledger : s.tick.ledger = s.ledger := by
  unfold State.tick
  split <;> rfl

end Frames

end Sys2Proof.Machine
end

section
/-! SUPPORT. The order of a node's map as a law of the spans of its listed grants, and what keeps it. -/

namespace Sys2Proof.Machine

/-! ### The law of a map, by spans -/

/-- A node's map against the spans of its listed grants: exactly they stand in it, each once, at most 32, by node base
without overlap, on granule boundaries below 2^40 (R39). -/
structure MapOrder (l : List WindowId) (span : WindowId → Option (Nat × Nat)) : Prop where
  mem : ∀ w, w ∈ l ↔ (span w).isSome
  once : l.Nodup
  bounded : l.length ≤ 32
  byBase : l.Pairwise fun w x => ∀ a ∈ span w, ∀ b ∈ span x, a.1 + a.2 ≤ b.1
  inSpace : ∀ w, ∀ a ∈ span w, a.1 % granuleBytes = 0 ∧ a.1 + a.2 ≤ nodeSpace

/-- Every window in use lists its grants by node number (R13). -/
def State.Rising (s : State) : Prop := ∀ w v, (s.window w).life = some v → v.rises

theorem mapEntry_eq_some_iff {s : State} {n : NodeId} {w : WindowId} {m : MapEntry} :
    s.mapEntry n w = some m ↔ m.window = w ∧ s.grant w n = some (m.live, m.grant) := by
  simp only [State.mapEntry, Option.map_eq_some_iff]
  constructor
  · rintro ⟨⟨v, g⟩, h, rfl⟩
    exact ⟨rfl, h⟩
  · rintro ⟨rfl, h⟩
    exact ⟨_, h, rfl⟩

/-- A span is that of the map entry for its window. -/
theorem mapEntry_of_span {s : State} {n : NodeId} {w : WindowId} {a : Nat × Nat} (h : s.span n w = some a) :
    ∃ m, s.mapEntry n w = some m ∧ m.grant.base = a.1 ∧ m.live.bytes = a.2 := by
  obtain ⟨v, g, hg, -, hb, hk⟩ := span_eq_some_iff.1 (show s.span n w = some (a.1, a.2) from h)
  exact ⟨⟨w, v, g⟩, mapEntry_eq_some_iff.2 ⟨rfl, hg⟩, hb, hk⟩

/-- The entry for a window that has a span has the span's base and length. -/
theorem mapEntry_span {s : State} {n : NodeId} {w : WindowId} {a : Nat × Nat} {m : MapEntry}
    (h : s.span n w = some a) (hm : s.mapEntry n w = some m) : m.grant.base = a.1 ∧ m.live.bytes = a.2 := by
  obtain ⟨m', hm', hb, hk⟩ := mapEntry_of_span h
  obtain rfl : m' = m := Option.some.inj (hm'.symm.trans hm)
  exact ⟨hb, hk⟩

theorem State.MapsOrdered.mapOrder {s : State} (h : s.MapsOrdered) (n : NodeId) : MapOrder (s.map n) (s.span n) where
  mem w := (h.listed n w).trans span_isSome_iff.symm
  once := h.once n
  bounded := h.bounded n
  byBase := by
    refine (List.pairwise_filterMap.1 (h.byBase n)).imp fun {w x} hwx a ha b hb => ?_
    obtain ⟨m, hm, h1, h2⟩ := mapEntry_of_span ha
    obtain ⟨m', hm', h3, -⟩ := mapEntry_of_span hb
    have := hwx m hm m' hm'
    rwa [MapEntry.before, h1, h2, h3] at this
  inSpace w a ha := by
    obtain ⟨m, hm, h1, h2⟩ := mapEntry_of_span ha
    have hw : w ∈ s.map n := (h.listed n w).2 (span_isSome_iff.1 (Option.isSome_iff_exists.2 ⟨a, ha⟩))
    have := h.inSpace n m (List.mem_filterMap.2 ⟨w, hw, hm⟩)
    rwa [MapEntry.inSpace, h1, h2] at this

theorem mapsOrdered_of_mapOrder {s : State} (hr : s.Rising) (h : ∀ n, MapOrder (s.map n) (s.span n)) :
    s.MapsOrdered where
  byNode := hr
  listed n w := ((h n).mem w).trans span_isSome_iff
  once n := (h n).once
  bounded n := (h n).bounded
  byBase n := by
    refine List.pairwise_filterMap.2 ((h n).byBase.imp_of_mem fun {w x} hw hx hwx m hm m' hm' => ?_)
    obtain ⟨a, ha⟩ := Option.isSome_iff_exists.1 (((h n).mem w).1 hw)
    obtain ⟨b, hb⟩ := Option.isSome_iff_exists.1 (((h n).mem x).1 hx)
    obtain ⟨h1, h2⟩ := mapEntry_span ha hm
    obtain ⟨h3, -⟩ := mapEntry_span hb hm'
    rw [MapEntry.before, h1, h2, h3]
    exact hwx a ha b hb
  inSpace n m hm := by
    obtain ⟨w, hw, hm⟩ := List.mem_filterMap.1 hm
    obtain ⟨a, ha⟩ := Option.isSome_iff_exists.1 (((h n).mem w).1 hw)
    obtain ⟨h1, h2⟩ := mapEntry_span ha hm
    rw [MapEntry.inSpace, h1, h2]
    exact (h n).inSpace w a ha

/-- Maps keep their order where maps and spans stay and grant lists stay by node number. -/
theorem State.MapsOrdered.of_spans {s t : State} (h : s.MapsOrdered) (hm : ∀ n, t.map n = s.map n)
    (hs : ∀ n w, t.span n w = s.span n w) (hr : t.Rising) : t.MapsOrdered := by
  refine mapsOrdered_of_mapOrder hr fun n => ?_
  rw [hm n, show t.span n = s.span n from funext (hs n)]
  exact h.mapOrder n

theorem State.MapsOrdered.of_ledger {s t : State} (h : s.MapsOrdered) (hl : t.ledger = s.ledger) : t.MapsOrdered := by
  refine h.of_spans (map_of_ledger hl) (span_of_accounts (accounts_of_ledger hl)) fun w v hv => ?_
  obtain ⟨u, hu, ha⟩ := life_of_accounts (accounts_of_ledger hl) hv
  rw [← rises_account, ← ha, rises_account]
  exact h.byNode w u hu

theorem State.MapsOrdered.of_shape {s t : State} (h : s.MapsOrdered) (hm : t.maps = s.maps)
    (hs : ∀ w, t.shape w = s.shape w) : t.MapsOrdered := by
  refine h.of_spans (fun n => congrArg (Table.get · n) hm) (fun n w => span_of_shape (hs w) n) fun w v hv => ?_
  have hl : (t.window w).life.map Live.shape = (s.window w).life.map Live.shape := congrArg Prod.snd (hs w)
  rw [hv] at hl
  obtain ⟨u, hu, ha⟩ := Option.map_eq_some_iff.1 hl.symm
  rw [← rises_shape, ← ha, rises_shape]
  exact h.byNode w u hu

/-! ### What a map makes a lookup find -/

theorem mem_map_of_span {s : State} (h : s.MapsOrdered) {n : NodeId} {w : WindowId} {a : Nat × Nat}
    (ha : s.span n w = some a) : w ∈ s.map n := ((h.mapOrder n).mem w).2 (by simp [ha])

theorem span_of_mem_map {s : State} (h : s.MapsOrdered) {n : NodeId} {w : WindowId} (hw : w ∈ s.map n) :
    ∃ a, s.span n w = some a := Option.isSome_iff_exists.1 (((h.mapOrder n).mem w).1 hw)

/-- Every entry of a map stands under its window's number with its grant's span. -/
theorem span_of_mem_mapEntries {s : State} (h : s.MapsOrdered) {n : NodeId} {m : MapEntry} (hm : m ∈ s.mapEntries n) :
    s.span n m.window = some (m.grant.base, m.live.bytes) ∧ s.mapEntry n m.window = some m := by
  obtain ⟨w, hw, hmw⟩ := List.mem_filterMap.1 hm
  obtain ⟨rfl, -⟩ := mapEntry_eq_some_iff.1 hmw
  obtain ⟨a, ha⟩ := span_of_mem_map h hw
  obtain ⟨h1, h2⟩ := mapEntry_span ha hmw
  exact ⟨by rw [ha, h1, h2], hmw⟩

theorem mem_mapEntries_of_mapEntry {s : State} {n : NodeId} {w : WindowId} {m : MapEntry} (hw : w ∈ s.map n)
    (hm : s.mapEntry n w = some m) : m ∈ s.mapEntries n := List.mem_filterMap.2 ⟨w, hw, hm⟩

/-- No two entries of a map hold one address (R42). -/
theorem eq_of_holds {s : State} (h : s.MapsOrdered) {n : NodeId} {m m' : MapEntry} {addr : Nat}
    (hm : m ∈ s.mapEntries n) (hm' : m' ∈ s.mapEntries n) (hh : m.holds addr = true) (hh' : m'.holds addr = true) :
    m = m' := by
  simp only [MapEntry.holds, Bool.and_eq_true, decide_eq_true_eq] at hh hh'
  by_contra hne
  have hp : (s.mapEntries n).Pairwise fun x y => x.before y ∨ y.before x := (h.byBase n).imp Or.inl
  have hs : Std.Symm fun x y : MapEntry => x.before y ∨ y.before x := ⟨fun _ _ => Or.symm⟩
  have := hp.forall hm hm' hne
  simp only [MapEntry.before] at this
  omega

/-- The lookup finds the entry whose span holds the address (R42). -/
theorem entryAt_of_span {s : State} (h : s.MapsOrdered) {n : NodeId} {w : WindowId} {b k addr : Nat}
    (hs : s.span n w = some (b, k)) (h1 : b ≤ addr) (h2 : addr < b + k) :
    ∃ m, s.entryAt n addr = some m ∧ m.window = w ∧ m.grant.base = b ∧ m.live.bytes = k := by
  obtain ⟨m, hm, hb, hk⟩ := mapEntry_of_span hs
  have hmem := mem_mapEntries_of_mapEntry (mem_map_of_span h hs) hm
  have hh : m.holds addr = true := by
    simp only [MapEntry.holds, Bool.and_eq_true, decide_eq_true_eq, hb, hk]
    omega
  cases hf : s.entryAt n addr with
  | none => exact absurd hh (List.find?_eq_none.1 hf m hmem)
  | some m' =>
    obtain rfl := eq_of_holds h (List.mem_of_find?_eq_some hf) hmem (List.find?_some (p := (MapEntry.holds · addr)) hf) hh
    exact ⟨_, rfl, (mapEntry_eq_some_iff.1 hm).1, hb, hk⟩

/-- What a lookup finds is listed, and its span holds the address (R42). -/
theorem span_of_entryAt {s : State} (h : s.MapsOrdered) {n : NodeId} {addr : Nat} {m : MapEntry}
    (hm : s.entryAt n addr = some m) :
    s.span n m.window = some (m.grant.base, m.live.bytes) ∧ s.mapEntry n m.window = some m ∧ m.grant.base ≤ addr ∧
      addr < m.grant.base + m.live.bytes := by
  have hh := List.find?_some (p := (MapEntry.holds · addr)) hm
  simp only [MapEntry.holds, Bool.and_eq_true, decide_eq_true_eq] at hh
  obtain ⟨hs, hw⟩ := span_of_mem_mapEntries h (List.mem_of_find?_eq_some hm)
  exact ⟨hs, hw, hh⟩

/-! ### What an update of one window does to spans -/

theorem life_updateLive (s : State) (w x : WindowId) (f : Live → Live) :
    ((s.updateLive w f).window x).life = if w = x then (s.window x).life.map f else (s.window x).life := by
  rw [window_updateLive]
  split <;> rfl

theorem span_updateLive (s : State) (n : NodeId) (w x : WindowId) (f : Live → Live) :
    (s.updateLive w f).span n x =
      if w = x then (s.window x).life.bind fun v => (f v).span n else s.span n x := by
  simp only [State.span, life_updateLive]
  split
  · cases (s.window x).life <;> rfl
  · rfl

theorem rising_updateLive {s : State} (h : s.Rising) {w : WindowId} {f : Live → Live}
    (hf : ∀ v, (s.window w).life = some v → v.rises → (f v).rises) : (s.updateLive w f).Rising := by
  intro x v hv
  rw [life_updateLive] at hv
  split at hv
  · rename_i hx
    subst hx
    obtain ⟨u, hu, rfl⟩ := Option.map_eq_some_iff.1 hv
    exact hf u hu (h _ u hu)
  · exact h x v hv

theorem rises_updateGrant {v : Live} (h : v.rises) (n : NodeId) {f : GrantRecord → GrantRecord}
    (hf : ∀ g, (f g).node = g.node) : (v.updateGrant n f).rises := by
  refine List.pairwise_map.2 (h.imp fun {g k} hgk => ?_)
  have hn : ∀ g : GrantRecord, (if g.node = n then f g else g).node = g.node := by
    intro g
    split
    · exact hf g
    · rfl
  rw [hn, hn]
  exact hgk

/-- A grant that turns DRAINING has no span any more; the others keep theirs (R41). -/
theorem span_draining (v : Live) (n m : NodeId) :
    (v.updateGrant n fun g => { g with state := .draining }).span m = if m = n then none else v.span m := by
  unfold Live.span
  rw [grant_updateGrant v n m (fun g => { g with state := .draining }) fun _ => rfl]
  split
  · cases v.grant m <;> simp
  · rfl

/-! ### Unlisting -/

/-- Taking a window out of a map takes its span out (R41). -/
theorem MapOrder.erase {l : List WindowId} {span : WindowId → Option (Nat × Nat)} (h : MapOrder l span) (w : WindowId) :
    MapOrder (l.filter fun x => x != w) fun x => if w = x then none else span x where
  mem x := by
    by_cases hx : w = x
    · simp [hx]
    · simp [hx, h.mem x, Ne.symm hx]
  once := h.once.filter _
  bounded := (List.length_filter_le ..).trans h.bounded
  byBase := (h.byBase.filter _).imp fun {x y} hxy a ha b hb => by
    simp only [Option.mem_def, Option.ite_none_left_eq_some] at ha hb
    exact hxy a ha.2 b hb.2
  inSpace x a ha := by
    simp only [Option.mem_def, Option.ite_none_left_eq_some] at ha
    exact h.inSpace x a ha.2

/-- The first half of an unlisting: out of the map and DRAINING (R116). -/
def State.delist (s : State) (w : WindowId) (n : NodeId) : State :=
  (s.setMap n ((s.map n).filter fun x => x != w)).updateGrant w n fun g => { g with state := .draining }

theorem span_delist (s : State) (n m : NodeId) (w x : WindowId) :
    (s.delist w n).span m x = if m = n ∧ w = x then none else s.span m x := by
  have hs : (s.setMap n ((s.map n).filter fun x => x != w)).span m x = s.span m x := rfl
  rw [State.delist, State.updateGrant, span_updateLive]
  by_cases hw : w = x
  · subst hw
    simp only [span_draining, if_true, and_true]
    by_cases hm : m = n
    · simp only [hm, if_true]
      cases ((s.setMap n _).window w).life <;> rfl
    · simp only [hm, if_false]
      exact hs
  · simp only [hw, if_false, and_false]
    exact hs

@[simp] theorem updateLive_map (s : State) (w : WindowId) (f : Live → Live) (n : NodeId) :
    (s.updateLive w f).map n = s.map n := congrArg (Table.get · n) (updateLive_maps s w f)

theorem map_delist (s : State) (n m : NodeId) (w : WindowId) :
    (s.delist w n).map m = if n = m then (s.map n).filter fun x => x != w else s.map m := by
  rw [State.delist, State.updateGrant, updateLive_map, map_setMap]

theorem State.MapsOrdered.delist {s : State} (h : s.MapsOrdered) (w : WindowId) (n : NodeId) :
    (s.delist w n).MapsOrdered := by
  refine mapsOrdered_of_mapOrder ?_ fun m => ?_
  · exact rising_updateLive (s := s.setMap n _) h.byNode fun v _ hv => rises_updateGrant hv n fun _ => rfl
  · rw [map_delist]
    by_cases hm : n = m
    · subst hm
      have : (s.delist w n).span n = fun x => if w = x then none else s.span n x := by
        funext x
        simp [span_delist]
      rw [if_pos rfl, this]
      exact (h.mapOrder n).erase w
    · have : (s.delist w n).span m = s.span m := by
        funext x
        simp [span_delist, Ne.symm hm]
      rw [if_neg hm, this]
      exact h.mapOrder m

/-! ### Removal, retirement and a new window -/

theorem grant_filter_ne (v : Live) (n m : NodeId) :
    ({ v with grants := v.grants.filter fun g => g.node != n } : Live).grant m = if m = n then none else v.grant m := by
  simp only [Live.grant, List.find?_filter]
  by_cases hm : m = n
  · subst hm
    rw [if_pos rfl]
    exact List.find?_eq_none.2 fun g _ => by by_cases hg : g.node = m <;> simp [hg]
  · rw [if_neg hm]
    congr 1
    funext g
    by_cases hg : g.node = m <;> simp [hg, hm]

/-- A DRAINING grant that is removed had no span to lose (R122). -/
theorem span_removed {s : State} {w : WindowId} {n : NodeId} {v : Live} {g : GrantRecord}
    (hg : s.grant w n = some (v, g)) (hd : g.state = .draining) (m : NodeId) (x : WindowId) :
    (s.updateLive w fun v => { v with grants := v.grants.filter fun g => g.node != n }).span m x = s.span m x := by
  obtain ⟨hv, hgn⟩ := grant_eq_some_iff.1 hg
  rw [span_updateLive]
  split
  · rename_i hx
    subst hx
    rw [span_of_life hv, hv]
    simp only [Option.bind_some, Live.span, grant_filter_ne]
    by_cases hm : m = n
    · subst hm
      simp [hgn, hd]
    · simp only [hm, if_false]
      rfl
  · rfl

theorem State.MapsOrdered.removed {s : State} (h : s.MapsOrdered) {w : WindowId} {n : NodeId} {v : Live} {g : GrantRecord}
    (hg : s.grant w n = some (v, g)) (hd : g.state = .draining) :
    (s.updateLive w fun v => { v with grants := v.grants.filter fun g => g.node != n }).MapsOrdered :=
  h.of_spans (updateLive_map _ _ _) (span_removed hg hd) (rising_updateLive h.byNode fun _ _ hv => hv.filter _)

theorem span_setWindow (s : State) (w x : WindowId) (n : NodeId) (r : WindowRecord) :
    (s.setWindow w r).span n x = if w = x then r.life.bind fun v => v.span n else s.span n x := by
  rw [State.span, window_setWindow]
  split <;> rfl

theorem span_of_no_grants {v : Live} (h : v.grants = []) (n : NodeId) : v.span n = none := by
  simp [Live.span, Live.grant, h]

/-- A window without grants may leave use or come into use: no map tells of it (R126, R17). -/
theorem State.MapsOrdered.setWindow_bare {s : State} (h : s.MapsOrdered) {w : WindowId} {r : WindowRecord}
    (hs : ∀ n, s.span n w = none) (hr : ∀ v, r.life = some v → v.grants = []) : (s.setWindow w r).MapsOrdered := by
  refine h.of_spans (fun _ => rfl) (fun n x => ?_) fun x v hv => ?_
  · rw [span_setWindow]
    split
    · rename_i hx
      subst hx
      rw [hs n]
      cases hl : r.life with
      | none => rfl
      | some v => exact span_of_no_grants (hr v hl) n
    · rfl
  · rw [window_setWindow] at hv
    split at hv
    · rw [Live.rises, hr v hv]
      exact List.Pairwise.nil
    · exact h.byNode x v hv

/-! ### A new grant -/

theorem insertRef_perm (baseOf : WindowId → Nat) (w : WindowId) (base : Nat) (l : List WindowId) :
    (insertRef baseOf w base l).Perm (w :: l) := by
  induction l with
  | nil => exact List.Perm.refl _
  | cons x rest ih =>
    simp only [insertRef]
    split
    · exact List.Perm.refl _
    · exact (ih.cons x).trans (List.Perm.swap ..)

/-- An insertion by base keeps a list ordered when the order follows the bases. -/
theorem insertRef_pairwise {R : WindowId → WindowId → Prop} {baseOf : WindowId → Nat} {w : WindowId} {base : Nat}
    {l : List WindowId} (hl : l.Pairwise R) (hb : ∀ x ∈ l, base < baseOf x → R w x)
    (ha : ∀ x ∈ l, ¬base < baseOf x → R x w) (ht : ∀ x ∈ l, ∀ y ∈ l, R x y → base < baseOf x → base < baseOf y) :
    (insertRef baseOf w base l).Pairwise R := by
  induction l with
  | nil => exact List.pairwise_singleton ..
  | cons x rest ih =>
    obtain ⟨hx, hrest⟩ := List.pairwise_cons.1 hl
    simp only [insertRef]
    split
    · rename_i hlt
      refine List.pairwise_cons.2 ⟨fun y hy => hb y hy ?_, hl⟩
      rcases List.mem_cons.1 hy with rfl | hy
      · exact hlt
      · exact ht x (by simp) y (by simp [hy]) (hx y hy) hlt
    · rename_i hge
      refine List.pairwise_cons.2 ⟨fun y hy => ?_, ih hrest (fun y hy => hb y (by simp [hy]))
        (fun y hy => ha y (by simp [hy])) fun y hy z hz => ht y (by simp [hy]) z (by simp [hz])⟩
      rcases List.mem_cons.1 ((insertRef_perm ..).mem_iff.1 hy) with rfl | hy
      · exact ha x (by simp) hge
      · exact hx y hy

/-- A span that overlaps none takes its place by base (R40, R45 step 7). -/
theorem MapOrder.insert {l : List WindowId} {span : WindowId → Option (Nat × Nat)} (h : MapOrder l span) {w : WindowId}
    {b k : Nat} {baseOf : WindowId → Nat} (hw : span w = none) (hk : 0 < k) (hl : l.length < 32)
    (hn : ∀ x, ∀ a ∈ span x, b + k ≤ a.1 ∨ a.1 + a.2 ≤ b) (hs : b % granuleBytes = 0 ∧ b + k ≤ nodeSpace)
    (hb : ∀ x, ∀ a ∈ span x, baseOf x = a.1) :
    MapOrder (insertRef baseOf w b l) fun x => if w = x then some (b, k) else span x := by
  have hp := insertRef_perm baseOf w b l
  have hwl : w ∉ l := fun hm => by simpa [hw] using (h.mem w).1 hm
  have hne : ∀ x ∈ l, w ≠ x := fun x hx hwx => hwl (hwx ▸ hx)
  refine
    { mem := fun x => ?_
      once := hp.nodup_iff.2 (List.nodup_cons.2 ⟨hwl, h.once⟩)
      bounded := by
        rw [hp.length_eq]
        exact hl
      byBase := insertRef_pairwise ?_ ?_ ?_ ?_
      inSpace := fun x a ha => ?_ }
  · rw [hp.mem_iff, List.mem_cons, h.mem x]
    by_cases hx : w = x
    · simp [hx]
    · simp [hx, Ne.symm hx]
  · refine h.byBase.imp_of_mem fun {x y} hx hy hxy => ?_
    simpa only [hne x hx, hne y hy, if_false] using hxy
  · intro x hx hlt a ha c hc
    simp only [hne x hx, if_true, if_false, Option.mem_def, Option.some.injEq] at ha hc
    subst ha
    have h1 := hn x c hc
    have h2 := hb x c hc
    simp only
    omega
  · intro x hx hge a ha c hc
    simp only [hne x hx, if_true, if_false, Option.mem_def, Option.some.injEq] at ha hc
    subst hc
    have h1 := hn x a ha
    have h2 := hb x a ha
    simp only
    omega
  · intro x hx y hy hxy hlt
    obtain ⟨a, ha⟩ := Option.isSome_iff_exists.1 ((h.mem x).1 hx)
    obtain ⟨c, hc⟩ := Option.isSome_iff_exists.1 ((h.mem y).1 hy)
    have h1 := hxy a (by simpa [hne x hx] using ha) c (by simpa [hne y hy] using hc)
    have h2 := hb x a ha
    have h3 := hb y c hc
    omega
  · by_cases hx : w = x
    · simp only [hx, if_true, Option.mem_def, Option.some.injEq] at ha
      subst ha
      exact hs
    · simp only [hx, if_false] at ha
      exact h.inSpace x a ha

theorem insertGrant_perm (g : GrantRecord) (l : List GrantRecord) : (insertGrant g l).Perm (g :: l) := by
  induction l with
  | nil => exact List.Perm.refl _
  | cons x rest ih =>
    simp only [insertGrant]
    split
    · exact List.Perm.refl _
    · exact (ih.cons x).trans (List.Perm.swap ..)

theorem insertGrant_rises {g : GrantRecord} {l : List GrantRecord} (hl : l.Pairwise fun g h => g.node < h.node)
    (hg : ∀ x ∈ l, x.node ≠ g.node) : (insertGrant g l).Pairwise fun g h => g.node < h.node := by
  induction l with
  | nil => exact List.pairwise_singleton ..
  | cons x rest ih =>
    obtain ⟨hx, hrest⟩ := List.pairwise_cons.1 hl
    simp only [insertGrant]
    split
    · rename_i hlt
      refine List.pairwise_cons.2 ⟨fun y hy => ?_, hl⟩
      rcases List.mem_cons.1 hy with rfl | hy
      · exact hlt
      · exact hlt.trans (hx y hy)
    · rename_i hge
      refine List.pairwise_cons.2 ⟨fun y hy => ?_, ih hrest fun y hy => hg y (by simp [hy])⟩
      rcases List.mem_cons.1 ((insertGrant_perm ..).mem_iff.1 hy) with rfl | hy
      · exact lt_of_le_of_ne (not_lt.1 hge) (hg x (by simp))
      · exact hx y hy

theorem grant_insertGrant {v : Live} {g : GrantRecord} (hg : v.grant g.node = none) (m : NodeId) :
    ({ v with grants := insertGrant g v.grants } : Live).grant m = if m = g.node then some g else v.grant m := by
  have hfind : ∀ l : List GrantRecord, (∀ x ∈ l, x.node ≠ g.node) →
      (insertGrant g l).find? (fun x => x.node == m) =
        if m = g.node then some g else l.find? fun x => x.node == m := by
    intro l
    induction l with
    | nil =>
      intro _
      by_cases hm : m = g.node
      · simp [insertGrant, hm]
      · simp [insertGrant, hm, Ne.symm hm]
    | cons x rest ih =>
      intro hx
      have h0 := hx x (by simp)
      have h1 := ih fun y hy => hx y (by simp [hy])
      by_cases hm : m = g.node
      · subst hm
        simp only [insertGrant]
        split
        · simp
        · rw [List.find?_cons, h1, beq_false_of_ne h0]
          simp
      · simp only [insertGrant, hm, if_false] at h1 ⊢
        split
        · simp [Ne.symm hm]
        · rw [List.find?_cons, h1, List.find?_cons]
  exact hfind v.grants (grant_eq_none_iff.1 hg)

/-- What GRANT has checked when it makes a grant (R45). -/
structure State.Grantable (s : State) (w : WindowId) (v : Live) (n : NodeId) (base : Nat) : Prop where
  live : (s.window w).life = some v
  long : 1 ≤ v.home.len
  none : v.grant n = none
  room : (s.map n).length < 32
  clear : ∀ m ∈ s.mapEntries n, m.overlaps base v.bytes = false
  aligned : base % granuleBytes = 0
  below : base + v.bytes ≤ nodeSpace

theorem bytes_pos {v : Live} (h : 1 ≤ v.home.len) : 0 < v.bytes := Nat.mul_pos h (by decide)

theorem map_addGrant (s : State) (w : WindowId) (n m : NodeId) (base : Nat) (r : Rights) :
    (s.addGrant w n base r).map m = if n = m then insertRef (s.baseOf n) w base (s.map n) else s.map m := by
  rw [State.addGrant, updateLive_map, map_setMap]

theorem span_addGrant {s : State} {w : WindowId} {v : Live} {n : NodeId} (hv : (s.window w).life = some v)
    (hn : v.grant n = none) (base : Nat) (r : Rights) (m : NodeId) (x : WindowId) :
    (s.addGrant w n base r).span m x = if m = n ∧ w = x then some (base, v.bytes) else s.span m x := by
  simp only [State.addGrant, span_updateLive]
  by_cases hx : w = x
  · subst hx
    rw [if_pos rfl, setMap_window, hv, Option.bind_some, Live.span,
      grant_insertGrant (g := ⟨n, base, r, .listed, 0, 0⟩) hn]
    by_cases hm : m = n
    · simp [hm, Live.bytes]
    · simp only [hm, if_false, false_and, span_of_life hv]
      rfl
  · simp only [hx, if_false, and_false]
    rfl

theorem baseOf_span {s : State} {n : NodeId} {w : WindowId} {a : Nat × Nat} (h : s.span n w = some a) :
    s.baseOf n w = a.1 := by
  obtain ⟨v, g, hg, -, hb, -⟩ := span_eq_some_iff.1 (show s.span n w = some (a.1, a.2) from h)
  simp only [State.baseOf, hg, hb]

theorem State.MapsOrdered.addGrant {s : State} (h : s.MapsOrdered) {w : WindowId} {v : Live} {n : NodeId} {base : Nat}
    (hg : s.Grantable w v n base) (r : Rights) : (s.addGrant w n base r).MapsOrdered := by
  refine mapsOrdered_of_mapOrder ?_ fun m => ?_
  · refine rising_updateLive (s := s.setMap n _) h.byNode fun u hu hr => insertGrant_rises hr ?_
    obtain rfl : u = v := Option.some.inj (hu.symm.trans hg.live)
    exact grant_eq_none_iff.1 hg.none
  · rw [map_addGrant]
    by_cases hm : n = m
    · subst hm
      have : (s.addGrant w n base r).span n = fun x => if w = x then some (base, v.bytes) else s.span n x := by
        funext x
        simp [span_addGrant hg.live hg.none]
      rw [if_pos rfl, this]
      refine (h.mapOrder n).insert ?_ (bytes_pos hg.long) hg.room (fun x a ha => ?_) ⟨hg.aligned, hg.below⟩
        fun x a ha => baseOf_span ha
      · simp [span_of_life hg.live, Live.span, hg.none]
      · obtain ⟨e, he, hb, hk⟩ := mapEntry_of_span ha
        have := hg.clear e (mem_mapEntries_of_mapEntry (mem_map_of_span h ha) he)
        simp only [MapEntry.overlaps, hb, hk, Bool.and_eq_false_iff, decide_eq_false_iff_not] at this
        omega
    · have : (s.addGrant w n base r).span m = s.span m := by
        funext x
        simp [span_addGrant hg.live hg.none, Ne.symm hm]
      rw [if_neg hm, this]
      exact h.mapOrder m

end Sys2Proof.Machine
end

section
/-! SUPPORT. What the part can do to the ledger, said once: a property that the ledger decides and that each single
change of it keeps is kept by every step. -/

namespace Sys2Proof.Machine

/-! ### The beginning of execution and the records -/

/-- What the beginning of an execution makes of the records the ledger holds (R84). -/
theorem beginExecution_live {s : State} {f : Matched} {v : Live} (hv : (s.window f.window).life = some v) (n : NodeId)
    (u : Tag) (q : Request) : ∃ x : Transaction,
      (x.id = s.nextTransaction ∧ x.node = n ∧ x.tag = some u ∧ x.window = f.window) ∧
      (s.beginExecution n u q f).ledger =
        ((({ s with transactions := s.transactions ++ [x], nextTransaction := s.nextTransaction + 1 }).setTag n u
          (some (q.executingEntry f s.nextTransaction))).raiseExecuting f.window n).ledger := by
  refine ⟨⟨s.nextTransaction, n, some u, q.kind, f.window, f.chunk, (s.route v q.kind f.chunk).ops q f.offset,
    (s.route v q.kind f.chunk).authoritative, none⟩, ⟨rfl, rfl, rfl, rfl⟩, ?_⟩
  simp only [State.beginExecution, hv]
  unfold State.raiseExecuting
  apply updateLive_ledger_congr
  · rw [setTag_windows, setTag_windows, windows_issueFor]
  · apply setTag_ledger_congr
    apply foldl_issueFor_ledger

theorem transactions_beginExecution (s : State) (n : NodeId) (u : Tag) (q : Request) (f : Matched) :
    s.transactions ⊆ (s.beginExecution n u q f).transactions := by
  cases hv : (s.window f.window).life with
  | none =>
    simp only [State.beginExecution, hv]
    exact List.Subset.refl _
  | some v =>
    obtain ⟨x, -, hl⟩ := beginExecution_live hv n u q
    rw [transactions_of_ledger hl]
    simp only [State.raiseExecuting, updateLive_transactions, setTag_transactions]
    exact List.subset_append_left ..

/-- A replay pass only adds records (R99). -/
theorem transactions_replayEntries (n : NodeId) (rest kept : List HoldEntry) (s : State) :
    s.transactions ⊆ (replayEntries n kept rest s).state.transactions := by
  induction rest generalizing kept s with
  | nil => exact List.Subset.refl _
  | cons e rest ih =>
    simp only [replayEntries]
    split
    · exact ih _ s
    · split
      · exact ih _ (s.setTag n e.tag _)
      · have hf := transactions_of_ledger (faultTag_ledger (s.lowerHeld e.window n) n e.tag ‹_›)
        rw [setTag_transactions, State.lowerHeld, updateLive_transactions] at hf
        exact hf ▸ ih ..
      · refine List.Subset.trans ?_ (ih ..)
        refine List.Subset.trans ?_ (transactions_beginExecution ..)
        rw [State.lowerHeld, updateLive_transactions]
        exact List.Subset.refl _

theorem transactions_replayWindow (s : State) (w : WindowId) :
    s.transactions ⊆ (s.replayWindow w).state.transactions := by
  have h : ∀ (l : List NodeId) (p : Pass), p.state.transactions ⊆ (l.foldl (Pass.node w) p).state.transactions := by
    intro l
    induction l with
    | nil => exact fun _ => List.Subset.refl _
    | cons n l ih =>
      intro p
      refine List.Subset.trans ?_ (ih _)
      unfold Pass.node
      split
      · exact transactions_replayEntries ..
      · exact List.Subset.refl _
  exact h _ ⟨s, [], []⟩

/-- A failed mirror write only adds records, by the replay of its job's abort (R140, R144). -/
theorem transactions_mirrorFailed (s : State) (w : WindowId) : s.transactions ⊆ (s.mirrorFailed w).transactions := by
  have habort : ∀ (j : SlotId) (r : AbortReason), s.transactions ⊆ (s.enterAborting j r).transactions := by
    intro j r
    cases hj : (s.slot j).isCopying with
    | false =>
      rw [enterAborting_of_not_copying hj]
      exact List.Subset.refl _
    | true =>
      obtain ⟨job, mark, hc⟩ : ∃ job mark, s.slot j = .copying job mark := by
        cases hs : s.slot j <;> simp_all [Slot.isCopying]
      have hw : ((s.setSlot j (.aborting job r)).endWaiting j).transactions = s.transactions :=
        transactions_of_ledger (by simp)
      rw [enterAborting_copying hc, transactions_of_ledger (lookDrain_ledger ..), ← hw]
      split
      · exact transactions_replayWindow ..
      · exact List.Subset.refl _
  unfold State.mirrorFailed
  split
  · exact List.Subset.refl _
  · split
    · exact habort ..
    all_goals exact List.Subset.refl _

/-! ### The single changes -/

/-- The tag of a transaction that ended is answered; an orphan has none (R87, R90). -/
def State.answerTag (s : State) (t : Transaction) : State :=
  match t.tag with
  | none => s
  | some tag => s.completeTag t tag

/-- The record of a transaction leaves the records (R88, R90). -/
def State.dropRecord (s : State) (t : Transaction) : State :=
  { s with transactions := s.transactions.filter fun u => u.id != t.id }

/-- The record of a transaction leaves with its tag and is counted no more (R87, R88, R90). -/
def State.closeRecord (s : State) (t : Transaction) : State :=
  ((s.answerTag t).dropRecord t).lowerExecuting t.window t.node

/-- The end of a transaction, after its record has left: the directory, the grant, the fence drain and the engine are
told (R88). -/
theorem endTransaction_eq (s : State) (t : Transaction) :
    s.endTransaction t =
      ((((s.closeRecord t).tellDirectory t.window).removeIfDrained t.window t.node).endFenceDrain t.node).tellEngine
        t.window := rfl

theorem unlist_eq (s : State) (w : WindowId) (n : NodeId) :
    s.unlist w n = ((s.delist w n).faultHeld n (fun e => e.window == w) .revoked).removeIfDrained w n := rfl

/-- The record `t` takes the outcome of one of its operations (R86). -/
def State.noteOp (s : State) (t : Transaction) (role : Role) (failed : Bool) (bytes : List Byte) : State :=
  { s with transactions := s.transactions.map fun x => if x.id = t.id then t.afterOp role failed bytes else x }

/-- A property of states that implies the order of the maps, that the ledger decides, and that each single change of
the ledger keeps. -/
structure Enduring (P : State → Prop) : Prop where
  maps : ∀ {s}, P s → s.MapsOrdered
  ledger : ∀ {s t}, P s → t.ledger = s.ledger → P t
  reset : P State.reset
  settle : ∀ {s n u q}, P s → s.tag n u = none → q.len ≠ 0 → P (s.settle n u q)
  faultHeld : ∀ {s} n hit r, P s → P (s.faultHeld n hit r)
  replay : ∀ {s} n, P s → P (s.replay n).state
  dropTags : ∀ {s} n, P s → P ((s.abandonTags n).dropHolds n)
  delisted : ∀ {s} w n, P s → P ((s.delist w n).faultHeld n (fun e => e.window == w) .revoked)
  removed : ∀ {s w n v g}, P s → s.grant w n = some (v, g) → g.state = .draining → g.executing = 0 →
    P (s.updateLive w fun v => { v with grants := v.grants.filter fun g => g.node != n })
  freed : ∀ {s w v} generation, P s → (s.window w).life = some v → v.grants = [] → P (s.setWindow w ⟨generation, none⟩)
  made : ∀ {s w} generation home, P s → (s.window w).life = none →
    P (s.setWindow w ⟨generation, some (Live.fresh home)⟩)
  granted : ∀ {s w v n base} r, P s → s.Grantable w v n base → P (s.addGrant w n base r)
  noted : ∀ {s t} role failed bytes, P s → t ∈ s.transactions → P (s.noteOp t role failed bytes)
  closed : ∀ {s t}, P s → t ∈ s.transactions → P (s.closeRecord t)

namespace Enduring

variable {P : State → Prop} (hE : Enduring P) {s : State} (h : P s)
include hE h

/-! ### Hold queues, replay and jobs -/

theorem enterFencing (n : NodeId) : P (s.enterFencing n) := by
  have h1 : P ((s.send n .fenceNotice).setLink n .fencing) := hE.ledger h (by simp)
  exact hE.ledger (hE.faultHeld n (fun _ => true) .fenced h1) (by simp [State.enterFencing])

theorem policyFence (n : NodeId) : P (s.policyFence n) := by
  unfold State.policyFence
  split
  · exact hE.enterFencing h n
  · exact h

theorem replayWindow (w : WindowId) : P (s.replayWindow w).state := by
  have hfold : ∀ (l : List NodeId) (p : Pass), P p.state → P (l.foldl (Pass.node w) p).state := by
    intro l
    induction l with
    | nil => exact fun _ hp => hp
    | cons n l ih =>
      intro p hp
      refine ih _ ?_
      unfold Pass.node
      split
      · exact hE.replay n hp
      · exact hp
  exact hfold _ _ h

theorem enterAborting (j : SlotId) (r : AbortReason) : P (s.enterAborting j r) := by
  unfold State.enterAborting
  split
  · rename_i job mark _
    have h1 : P ((s.setSlot j (.aborting job r)).endWaiting j) := hE.ledger h (by simp)
    refine hE.ledger (s := if mark then (((s.setSlot j (.aborting job r)).endWaiting j).replayWindow job.window).state
      else (s.setSlot j (.aborting job r)).endWaiting j) ?_ (lookDrain_ledger ..)
    split
    · exact hE.replayWindow h1 _
    · exact h1
  all_goals exact h

theorem mirrorFailed (w : WindowId) : P (s.mirrorFailed w) := by
  unfold State.mirrorFailed
  split
  · exact h
  · split
    · exact hE.enterAborting h ..
    all_goals exact h

theorem copyFailed (j : SlotId) (r : AbortReason) : P (s.copyFailed j r) :=
  hE.ledger (hE.enterAborting (hE.ledger h (setPhase_ledger s .idle)) j r) (endTurn_ledger _)

theorem copyReadEnded {j : SlotId} {r : OpEnd} (hr : r.state = s) : P (State.copyReadEnded j r) := by
  subst hr
  unfold State.copyReadEnded
  split
  · split
    · exact hE.copyFailed h ..
    · exact hE.ledger h (issueCopyWrite_ledger ..)
  all_goals exact hE.ledger h (endAbortedTurn_ledger ..)

/-- The switch exchanges two extents of one length (R141, R131). -/
theorem switch {j : SlotId} {job : Job} (ho : s.ownedHome j job job.source) : P (s.switch j job) := by
  obtain ⟨hlen, v, hv, -, hhome⟩ := ho
  refine hE.ledger h ?_
  rw [State.switch, lookDrain_ledger, setSlot_ledger]
  refine updateLive_ledger _ fun u hu => ?_
  obtain rfl : u = v := Option.some.inj (hu.symm.trans hv)
  simp [Live.account, hlen, hhome]

theorem copyWriteEnded {j : SlotId} {r : OpEnd} (hr : r.state = s) (ho : s.slotsOwn) :
    P (State.copyWriteEnded j r) := by
  subst hr
  unfold State.copyWriteEnded
  split
  · rename_i job mark hj
    have hown : r.state.ownedHome j job job.source := by
      have := ho j
      rwa [hj] at this
    split
    · exact hE.copyFailed h ..
    · refine hE.ledger (hE.replayWindow ?_ job.window) (endTurn_ledger _)
      have h1 : P (r.state.setPhase .idle) := hE.ledger h (setPhase_ledger ..)
      unfold State.afterChunk
      split
      · exact hE.switch h1 (job := { job with cursor := job.cursor + chunkBytes }) hown
      · exact hE.ledger h1 (setSlot_ledger ..)
  all_goals exact hE.ledger h (endAbortedTurn_ledger ..)

/-! ### Removal, unlisting, retirement -/

theorem retireIfEmpty (w : WindowId) : P (s.retireIfEmpty w) := by
  unfold State.retireIfEmpty
  split
  · exact h
  · rename_i v hv
    split
    · rename_i hc
      have h1 : P (s.release v.home) := hE.ledger h (release_ledger ..)
      exact hE.ledger (hE.freed ((s.window w).generation + 1) h1 hv hc.2) (raise_ledger ..)
    · exact h

theorem removeIfDrained (w : WindowId) (n : NodeId) : P (s.removeIfDrained w n) := by
  unfold State.removeIfDrained
  split
  · exact h
  · rename_i vg hvg
    split
    · rename_i hc
      exact hE.retireIfEmpty (hE.ledger (hE.removed h hvg hc.1 hc.2) (raise_ledger ..)) w
    · exact h

theorem unlist (w : WindowId) (n : NodeId) : P (s.unlist w n) := hE.removeIfDrained (hE.delisted w n h) w n

omit hE h in
/-- A grant in a list that stands by node number is the one found for its node (R13). -/
theorem grant_of_mem {v : Live} (hr : v.rises) {g : GrantRecord} (hg : g ∈ v.grants) : v.grant g.node = some g := by
  unfold Live.rises at hr
  unfold Live.grant
  generalize v.grants = l at hr hg ⊢
  induction l with
  | nil => simp at hg
  | cons x l ih =>
    obtain ⟨hx, hl⟩ := List.pairwise_cons.1 hr
    rcases List.mem_cons.1 hg with rfl | hg
    · simp
    · have hlt := hx g hg
      rw [List.find?_cons, beq_false_of_ne (ne_of_lt hlt)]
      exact ih hl hg

/-- A notice makes a LISTED grant REVOKING, which the ledger does not tell apart (R114). -/
theorem sendNotice {w : WindowId} {v : Live} {n : NodeId} {g : GrantRecord} (hg : s.grant w n = some (v, g))
    (hl : g.state = .listed) : P (s.sendNotice w v n g) := by
  obtain ⟨hv, hgn⟩ := grant_eq_some_iff.1 hg
  refine hE.ledger h ?_
  have hw : ∀ (p : Port) (m : Message), ((s.setPort n p).send n m).windows = s.windows := fun p m => windows_send ..
  refine (updateLive_ledger _ fun u hu => account_updateGrant _ _ _ fun k hk hn => ?_).trans (by simp)
  rw [State.window, hw] at hu
  obtain rfl : u = v := Option.some.inj (hu.symm.trans hv)
  have hkg : u.grant n = some k := hn ▸ grant_of_mem ((hE.maps h).byNode w u hv) hk
  obtain rfl : k = g := Option.some.inj (hkg.symm.trans hgn)
  simp [GrantRecord.account, hl]

theorem withdraw {w : WindowId} {v : Live} {n : NodeId} {g : GrantRecord} (hg : s.grant w n = some (v, g))
    (hl : g.state = .listed) : P (s.withdraw w v n g) := by
  unfold State.withdraw
  split
  · exact hE.sendNotice h hg hl
  · exact hE.unlist h w n

theorem retireGrant (w : WindowId) (n : NodeId) : P (State.retireGrant w s n) := by
  unfold State.retireGrant
  split
  · exact h
  · rename_i vg hvg
    split
    · rename_i hl
      exact hE.withdraw h hvg hl
    all_goals exact h

theorem retire (w : WindowId) : P (s.retire w) := by
  have hfault : ∀ (l : List NodeId) {s : State}, P s →
      P (l.foldl (fun s n => s.faultHeld n (fun e => e.window == w) .windowRetired) s) := by
    intro l
    induction l with
    | nil => exact fun hs => hs
    | cons n l ih => exact fun hs => ih (hE.faultHeld n _ _ hs)
  have hgrants : ∀ (l : List NodeId) {s : State}, P s → P (l.foldl (State.retireGrant w) s) := by
    intro l
    induction l with
    | nil => exact fun hs => hs
    | cons n l ih => exact fun hs => ih (hE.retireGrant hs w n)
  have hbegun : P (s.updateLive w fun v => { v with state := .retiring, quietPending := false }) :=
    hE.ledger h (updateLive_ledger _ fun _ _ => rfl)
  unfold State.retire
  exact hE.retireIfEmpty (hgrants _ (hfault _ hbegun)) w

theorem acknowledge (n : NodeId) (number : Byte) : P (s.acknowledge n number) := by
  unfold State.acknowledge
  split
  · exact h
  · split
    · exact hE.unlist h ..
    · exact hE.ledger h (raise_ledger ..)

theorem forceRemoval (w : WindowId) (n : NodeId) : P (s.forceRemoval w n) :=
  hE.policyFence (hE.ledger (hE.unlist h w n) (raise_ledger ..)) n

theorem unlistRevoking (n : NodeId) : P (s.unlistRevoking n) := by
  have hfold : ∀ (l : List (Byte × WindowId)) {s : State}, P s → P (l.foldl (fun s x => s.unlist x.2 n) s) := by
    intro l
    induction l with
    | nil => exact fun hs => hs
    | cons x l ih => exact fun hs => ih (hE.unlist hs ..)
  exact hfold _ h

/-! ### Links and requests -/

theorem dropNode (n : NodeId) : P (s.dropNode n) :=
  hE.unlistRevoking (hE.dropTags n (hE.ledger h (clearOutbound_ledger s n))) n

theorem hello (n : NodeId) (identity : Word) : P (s.hello n identity) := by
  have hr : P (s.restart n identity) := hE.ledger (hE.dropNode h n) (by simp [State.restart])
  unfold State.hello
  split
  · exact h
  · exact hE.ledger h (by simp [State.firstHello])
  all_goals exact hr

theorem arrive (n : NodeId) (t : Tag) (q : Request) : P (s.arrive n t q) := by
  unfold State.arrive
  split
  · exact h
  · exact hE.ledger h (raise_ledger ..)
  · exact hE.ledger h (sendFault_ledger ..)
  · exact hE.ledger h (sendFault_ledger ..)
  · split_ifs with ht hb
    · exact hE.ledger h (raise_ledger ..)
    · exact hE.ledger h (sendFault_ledger ..)
    · refine hE.settle h (by simpa using ht) fun hlen => hb ?_
      simp [badFormat, hlen]

theorem deliver (n : NodeId) (m : Inbound) : P (s.deliver n m) := by
  cases m with
  | hello identity => exact hE.hello h n identity
  | read t addr len => exact hE.arrive h ..
  | write t addr len data => exact hE.arrive h ..
  | revokeAck number => exact hE.acknowledge h n number

theorem expireHolds (n : NodeId) (t : Nat) : P (s.expireHolds n t) := hE.replay n (hE.faultHeld n _ _ h)

/-! ### The end of a transaction -/

theorem endTransaction {t : Transaction} (ht : t ∈ s.transactions) : P (s.endTransaction t) := by
  rw [endTransaction_eq]
  have h1 : P ((s.closeRecord t).tellDirectory t.window) := hE.ledger (hE.closed h ht) (tellDirectory_ledger ..)
  exact hE.ledger (hE.removeIfDrained h1 t.window t.node) (by simp)

end Enduring

end Sys2Proof.Machine
end

section
/-! SUPPORT. Every command, event and step keeps an enduring property. -/

namespace Sys2Proof.Machine

/-! ### The commands that only report -/

section Reports

variable (p : Vector Word 8) (s : State)

theorem completeGetAttention_state : (completeGetAttention p s).state = s := by
  unfold completeGetAttention
  split <;> rfl

theorem completeQueryWindow_state : (completeQueryWindow p s).state = s := by
  unfold completeQueryWindow
  split <;> rfl

theorem completeQueryFree_state : (completeQueryFree p s).state = s := by
  unfold completeQueryFree
  simp only []
  split <;> rfl

theorem completeQueryGrant_state : (completeQueryGrant p s).state = s := by
  unfold completeQueryGrant
  split
  · rfl
  · split
    · rfl
    · split <;> rfl

theorem completeLookup_state : (completeLookup p s).state = s := by
  unfold completeLookup
  split
  · rfl
  · split
    · unfold lookupAddress
      split
      · rfl
      · split <;> rfl
    · split
      · unfold lookupIndex
        split <;> rfl
      · rfl

theorem completeReadFaultCapture_state : (completeReadFaultCapture p s).state = s := by
  unfold completeReadFaultCapture
  split <;> rfl

theorem completeQueryJob_state : (completeQueryJob p s).state = s := by
  unfold completeQueryJob
  split <;> rfl

end Reports

namespace Enduring

variable {P : State → Prop} (hE : Enduring P) {s : State} (h : P s)
include hE h

/-! ### The end of an operation -/

theorem operationEnded {t : Transaction} (ht : t ∈ s.transactions) (role : Role) (r : OpEnd) :
    P (s.operationEnded t role r) := by
  have hn : P (s.noteOp t role r.failed r.bytes) := hE.noted role r.failed r.bytes h ht
  have hu : t.afterOp role r.failed r.bytes ∈ (s.noteOp t role r.failed r.bytes).transactions :=
    List.mem_map.2 ⟨t, ht, if_pos rfl⟩
  have ht : P (if r.failed && t.mirrored && role == .target then
        (s.noteOp t role r.failed r.bytes).mirrorFailed t.window
      else s.noteOp t role r.failed r.bytes) ∧
      t.afterOp role r.failed r.bytes ∈ (if r.failed && t.mirrored && role == .target then
        (s.noteOp t role r.failed r.bytes).mirrorFailed t.window
      else s.noteOp t role r.failed r.bytes).transactions := by
    split
    · exact ⟨hE.mirrorFailed hn _, transactions_mirrorFailed _ _ hu⟩
    · exact ⟨hn, hu⟩
  unfold State.operationEnded
  simp only []
  split
  · exact ht.1
  · exact hE.endTransaction ht.1 ht.2

/-! ### Commands -/

omit hE h in
/-- A window that passes the window check is in use (R6). -/
theorem life_of_windowCheck {c : Cmd} {p : Vector Word 8} {w : WindowId} {v : Live}
    (hc : s.windowCheck c p = .passed w v) : (s.window w).life = some v := by
  unfold State.windowCheck at hc
  split at hc
  · split at hc
    · simp at hc
    · simp only at hc
      split at hc
      · simp at hc
      · rename_i u hu
        split at hc
        · simp at hc
        · split at hc
          · obtain ⟨rfl, rfl⟩ := WindowCheck.passed.inj hc
            exact hu
          · simp at hc
  · simp at hc

theorem completeCreateWindow (p : Vector Word 8) : P (completeCreateWindow p s).state := by
  unfold Machine.completeCreateWindow
  split
  · exact h
  · split
    · exact h
    · split
      · exact h
      · split
        · exact h
        · rename_i w hw
          have hfree : (s.window w).life = none := by
            simpa using List.find?_some (p := fun w => (s.window w).life.isNone) hw
          split
          · split <;> exact h
          · rename_i x _
            have hl : P { s with freeList := x.2 } := hE.ledger h rfl
            exact hE.made (s.window w).generation x.1 hl hfree

theorem completeGrant (ho : s.homesHold) (p : Vector Word 8) : P (completeGrant p s).state := by
  unfold Machine.completeGrant
  split
  · exact h
  · rename_i w v hc
    have hv := life_of_windowCheck hc
    split
    · exact h
    · exact h
    · rename_i n r _ _
      split_ifs with h1 h2
      · exact h
      · exact h
      · unfold placeGrant
        split
        · exact h
        · rename_i hg
          split_ifs with h3
          · exact h
          · split
            · exact h
            · rename_i hclear
              refine hE.granted r h
                { live := hv
                  long := ho w v hv
                  none := hg
                  room := by omega
                  clear := fun m hm => by simpa using List.find?_eq_none.1 hclear m hm
                  aligned := by omega
                  below := by omega }

theorem completeSetRights (p : Vector Word 8) : P (completeSetRights p s).state := by
  unfold Machine.completeSetRights
  split
  · exact h
  · split
    · exact h
    · exact h
    · split
      · exact h
      · split_ifs
        · exact h
        · exact hE.ledger h (updateLive_ledger _ fun _ _ => account_updateGrant _ _ _ fun _ _ _ => rfl)

theorem completeAdmitNode (p : Vector Word 8) : P (completeAdmitNode p s).state := by
  unfold Machine.completeAdmitNode
  split
  · exact h
  · split_ifs
    · exact hE.ledger h ((send_ledger ..).trans (setLink_ledger ..))
    · exact h

theorem completeFenceNode (p : Vector Word 8) : P (completeFenceNode p s).state := by
  unfold Machine.completeFenceNode
  split
  · exact h
  · split
    · simp only [carriedOut]
      exact hE.enterFencing h _
    · exact h

theorem completeRevoke (p : Vector Word 8) : P (completeRevoke p s).state := by
  unfold Machine.completeRevoke
  split
  · exact h
  · rename_i w v hc
    have hv := life_of_windowCheck hc
    split
    · exact h
    · split
      · exact h
      · rename_i n _ _ g hg
        split
        · exact h
        · exact h
        · rename_i hl
          have hw : P (s.withdraw w v n g) := hE.withdraw h (grant_eq_some_iff.2 ⟨hv, hg⟩) hl
          split_ifs <;> exact hw

theorem completeMigrate (p : Vector Word 8) : P (completeMigrate p s).state := by
  unfold Machine.completeMigrate
  split
  · exact h
  · split
    · exact h
    · split
      · exact h
      · split
        · exact h
        · split
          · split <;> exact h
          · exact hE.ledger h (migrate_ledger ..)

theorem completeAbortJob (p : Vector Word 8) : P (completeAbortJob p s).state := by
  unfold Machine.completeAbortJob
  split
  · exact h
  · split
    · exact hE.enterAborting h ..
    all_goals exact h

theorem completeAckAttention (p : Vector Word 8) : P (completeAckAttention p s).state := by
  unfold Machine.completeAckAttention
  split
  · simp only []
    split
    · exact h
    · exact hE.ledger h (ackSource_ledger ..)
  · exact h

theorem completeSetTimers (p : Vector Word 8) : P (completeSetTimers p s).state := by
  unfold Machine.completeSetTimers
  split
  · exact h
  · exact hE.ledger h rfl

theorem completeSetPolicy (p : Vector Word 8) : P (completeSetPolicy p s).state := by
  unfold Machine.completeSetPolicy
  split
  · exact h
  · exact hE.ledger h rfl

theorem completeReleaseFaultCapture (p : Vector Word 8) : P (completeReleaseFaultCapture p s).state := by
  unfold Machine.completeReleaseFaultCapture
  split
  · exact h
  · exact hE.ledger h (setCapture_ledger ..)

theorem completeSuspend (p : Vector Word 8) : P (completeSuspend p s).state := by
  unfold Machine.completeSuspend
  split
  · exact h
  · exact hE.ledger h (suspend_ledger ..)

theorem completeResume (p : Vector Word 8) : P (completeResume p s).state := by
  unfold Machine.completeResume
  split
  · exact h
  · rename_i w v _
    have ha : P (s.updateLive w fun v => { v with state := .active, quietPending := false }) :=
      hE.ledger h (updateLive_ledger _ fun _ _ => rfl)
    simp only [carriedOut]
    exact hE.replayWindow ha w

theorem completeRetire (p : Vector Word 8) : P (completeRetire p s).state := by
  unfold Machine.completeRetire
  split
  · exact h
  · simp only [carriedOut]
    exact hE.retire h _

/-- Every command's completion keeps an enduring property. -/
theorem complete (ho : s.homesHold) (c : Cmd) (p : Vector Word 8) : P (complete c p s).state := by
  cases c with
  | nop => exact h
  | identify => exact h
  | setTimers => exact hE.completeSetTimers h p
  | setPolicy => exact hE.completeSetPolicy h p
  | getAttention => exact (completeGetAttention_state p s).symm ▸ h
  | ackAttention => exact hE.completeAckAttention h p
  | createWindow => exact hE.completeCreateWindow h p
  | queryWindow => exact (completeQueryWindow_state p s).symm ▸ h
  | queryFree => exact (completeQueryFree_state p s).symm ▸ h
  | grant => exact hE.completeGrant h ho p
  | setRights => exact hE.completeSetRights h p
  | queryGrant => exact (completeQueryGrant_state p s).symm ▸ h
  | lookup => exact (completeLookup_state p s).symm ▸ h
  | admitNode => exact hE.completeAdmitNode h p
  | fenceNode => exact hE.completeFenceNode h p
  | readFaultCapture => exact (completeReadFaultCapture_state p s).symm ▸ h
  | releaseFaultCapture => exact hE.completeReleaseFaultCapture h p
  | suspend => exact hE.completeSuspend h p
  | resume => exact hE.completeResume h p
  | revoke => exact hE.completeRevoke h p
  | retire => exact hE.completeRetire h p
  | migrate => exact hE.completeMigrate h p
  | abortJob => exact hE.completeAbortJob h p
  | queryJob => exact (completeQueryJob_state p s).symm ▸ h

end Enduring

end Sys2Proof.Machine
end

section
/-! SUPPORT. The installation of the boot image, and the step as a whole. -/

namespace Sys2Proof.Machine

/-! ### The image that is installed -/

theorem readWindows_length {k i : Nat} {bytes : List Byte} {x : List ImageWindow × List Byte}
    (h : readWindows k i bytes = .ok x) : x.1.length = k := by
  fun_induction readWindows k i bytes generalizing x with
  | case1 => exact Except.ok.inj h ▸ rfl
  | case5 _ _ _ _ _ _ _ _ _ _ _ _ _ _ hy ih => exact Except.ok.inj h ▸ congrArg (· + 1) (ih hy)
  | _ => simp at h

/-- An image that is read has at most 8 windows (R167). -/
theorem readBody_windows {all bytes : List Byte} {m : BootImage} (h : readBody all bytes = .ok m) :
    m.windows.length ≤ 8 := by
  unfold readBody at h
  split at h
  · split at h
    · simp at h
    · rename_i hc
      split at h
      · simp at h
      · rename_i hr
        split at h
        · obtain rfl := Except.ok.inj h
          have := readWindows_length hr
          simp only at this ⊢
          omega
        · simp at h
      · simp at h
  · simp at h

/-- An image to install has at most 8 windows, and no entry of it breaks a rule (R167, R168). -/
theorem bootLoad_ok {enabled : Bool} {granules : Nat} {eeprom : List Byte} {m : BootImage}
    (h : bootLoad enabled granules eeprom = .ok m) :
    m.windows.length ≤ 8 ∧ badWindow granules 0 [] [] m.windows = none := by
  unfold bootLoad at h
  split at h
  · split at h
    · simp at h
    · rename_i hm
      split at h
      · simp at h
      · rename_i hb
        obtain rfl := Except.ok.inj h
        constructor
        · unfold readImage at hm
          split at hm
          · split at hm
            · simp at hm
            · split at hm
              · split at hm
                · simp at hm
                · exact readBody_windows hm
              · simp at hm
          · simp at hm
        · unfold badEntry at hb
          split at hb
          · exact hb
          · simp at hb
  · simp at h

/-- What the validation of the next window establishes (R168). -/
theorem badWindow_cons {granules i : Nat} {extents : List Extent} {ranges : List TakenRange} {x : ImageWindow}
    {rest : List ImageWindow} (hb : badWindow granules i extents ranges (x :: rest) = none) :
    1 ≤ x.len ∧ ∃ taken, grantsValid (x.len * granuleBytes) [] ranges x.grants = some taken ∧
      badWindow granules (i + 1) (x.extent :: extents) taken rest = none := by
  unfold badWindow at hb
  split at hb
  · rename_i hv
    simp only [windowValid, Bool.and_eq_true, decide_eq_true_eq] at hv
    obtain ⟨⟨⟨h1, -⟩, -⟩, -⟩ := hv
    split at hb
    · rename_i taken ht
      exact ⟨h1, taken, ht, hb⟩
    · simp at hb
  · simp at hb

theorem endBoot_ledger (s : State) (status : BootStatus) (mask : BitVec 4) (f : Flag) :
    (s.endBoot status mask f).ledger = s.ledger := by
  have hfold : ∀ (l : List NodeId) (s : State), (l.foldl State.decidePort s).ledger = s.ledger := by
    intro l
    induction l with
    | nil => exact fun _ => rfl
    | cons n l ih => exact fun s => (ih _).trans (decidePort_ledger s n)
  have hports := hfold allNodes { s with maskInForce := mask }
  unfold State.endBoot
  generalize allNodes.foldl State.decidePort { s with maskInForce := mask } = t at hports ⊢
  exact hports

/-- A command row is the write of its code to COMMAND (R151). -/
theorem exec_of_commandRow {i : Instr} {code : Word} (h : commandRow i = some code) (s : State) :
    exec i s = event (fun s => s.writeCommand code) s := by
  cases i <;> cases h <;> rfl

/-! ### Stages of the installation -/

/-- Before an image window is installed: the windows from its number on are FREE, and the ranges taken are known. -/
structure State.Loading (s : State) (i : Nat) (ranges : List TakenRange) : Prop where
  free : ∀ x : WindowId, i ≤ x.val → (s.window x).life = none
  taken : ∀ n w b k, s.span n w = some (b, k) → ⟨n.val, b, k⟩ ∈ ranges

/-- While a window's grants are installed: it is in use with its length, the nodes it has grants for are known, the
windows after it are FREE, and the ranges taken are known. -/
structure State.LoadingGrants (s : State) (w : WindowId) (len : Nat) (own : List Nat) (ranges : List TakenRange) :
    Prop where
  live : ∃ v, (s.window w).life = some v ∧ v.home.len = len ∧ ∀ n g, v.grant n = some g → n.val ∈ own
  free : ∀ x : WindowId, w.val < x.val → (s.window x).life = none
  taken : ∀ n x b k, s.span n x = some (b, k) → ⟨n.val, b, k⟩ ∈ ranges

/-- What the validation of a grant establishes (R168 orders 5 to 7). -/
theorem grantValid_iff {bytes : Nat} {own : List Nat} {earlier : List TakenRange} {g : ImageGrant}
    (h : grantValid bytes own earlier g = true) :
    g.node < 4 ∧ g.node ∉ own ∧ g.base % granuleBytes = 0 ∧ g.base + bytes ≤ nodeSpace ∧
      ∀ r ∈ earlier, r.node = g.node → ¬(r.base < g.base + bytes ∧ g.base < r.base + r.bytes) := by
  simp only [grantValid, Bool.and_eq_true, decide_eq_true_eq, Bool.not_eq_true', List.contains_eq_mem,
    decide_eq_false_iff_not, beq_iff_eq, List.any_eq_false] at h
  obtain ⟨⟨⟨⟨⟨⟨h1, h2⟩, -⟩, h3⟩, -⟩, h4⟩, h5⟩ := h
  exact ⟨h1, h2, h3, h4, fun r hr hn hc => h5 r hr ⟨⟨hn, hc.1⟩, hc.2⟩⟩

/-- A map that tells of no window from a number on is no longer than that number. -/
theorem map_length_le {s : State} (h : s.MapsOrdered) {n : NodeId} {i : Nat} (hi : ∀ x ∈ s.map n, x.val < i) :
    (s.map n).length ≤ i := by
  have hn : ((s.map n).map Fin.val).Nodup := (h.once n).map Fin.val_injective
  have hs : (s.map n).map Fin.val ⊆ List.range i := by
    intro y hy
    obtain ⟨x, hx, rfl⟩ := List.mem_map.1 hy
    exact List.mem_range.2 (hi x hx)
  simpa using (List.subperm_of_subset hn hs).length_le

theorem live_of_mem_map {s : State} (h : s.MapsOrdered) {n : NodeId} {x : WindowId} (hx : x ∈ s.map n) :
    ∃ v g, (s.window x).life = some v ∧ v.grant n = some g := by
  obtain ⟨v, g, hg, -⟩ := (h.listed n x).1 hx
  exact ⟨v, g, grant_eq_some_iff.1 hg⟩

theorem life_addGrant (s : State) (w x : WindowId) (n : NodeId) (base : Nat) (r : Rights) :
    ((s.addGrant w n base r).window x).life =
      if w = x then
        (s.window x).life.map fun v => { v with grants := insertGrant (GrantRecord.fresh n base r) v.grants }
      else (s.window x).life := by
  simp only [State.addGrant, life_updateLive]
  rfl

theorem State.LoadingGrants.addGrant {s : State} {w : WindowId} {len : Nat} {own : List Nat}
    {ranges : List TakenRange} (hs : s.LoadingGrants w len own ranges) {n : NodeId} (hn : n.val ∉ own) (base : Nat)
    (r : Rights) :
    (s.addGrant w n base r).LoadingGrants w len (n.val :: own) (⟨n.val, base, len * granuleBytes⟩ :: ranges) := by
  obtain ⟨v, hv, hlen, hown⟩ := hs.live
  have hnone : v.grant n = none := by
    cases hg : v.grant n with
    | none => rfl
    | some g => exact absurd (hown n g hg) hn
  have hlive : ((s.addGrant w n base r).window w).life =
      some { v with grants := insertGrant (GrantRecord.fresh n base r) v.grants } := by
    rw [life_addGrant, if_pos rfl, hv]
    rfl
  refine ⟨⟨_, hlive, hlen, fun m g hg => ?_⟩, fun x hx => ?_, fun m x b k hb => ?_⟩
  · rw [grant_insertGrant (g := GrantRecord.fresh n base r) hnone] at hg
    split at hg
    · rename_i hm
      subst hm
      exact List.mem_cons_self ..
    · exact List.mem_cons_of_mem _ (hown m g hg)
  · rw [life_addGrant, if_neg (fun hwx => absurd hx (by simp [hwx]))]
    exact hs.free x hx
  · rw [span_addGrant hv hnone] at hb
    split at hb
    · rename_i hm
      obtain ⟨rfl, rfl⟩ := Prod.mk.inj (Option.some.inj hb)
      simp [hm.1, Live.bytes, hlen]
    · exact List.mem_cons_of_mem _ (hs.taken m x b k hb)

namespace Enduring

variable {P : State → Prop} (hE : Enduring P)
include hE

/-- The grants of an image window that the validation passes are installed (R169 step 3). -/
theorem installGrants {w : WindowId} {len : Nat} (hw : w.val < 32) (hlen : 1 ≤ len) (gs : List ImageGrant)
    {s : State} {own : List Nat} {ranges taken : List TakenRange} (h : P s) (hs : s.LoadingGrants w len own ranges)
    (hv : grantsValid (len * granuleBytes) own ranges gs = some taken) :
    P (gs.foldl (State.installGrant w) s) ∧ (gs.foldl (State.installGrant w) s).Loading (w.val + 1) taken := by
  induction gs generalizing s own ranges with
  | nil =>
    obtain rfl := Option.some.inj hv
    exact ⟨h, fun x hx => hs.free x (by omega), hs.taken⟩
  | cons g gs ih =>
    unfold grantsValid at hv
    split at hv
    · rename_i hg
      obtain ⟨hnode, hown, haligned, hbelow, hclear⟩ := grantValid_iff hg
      have hn : (Fin.ofNat 4 g.node : NodeId).val = g.node := Nat.mod_eq_of_lt hnode
      generalize hnid : (Fin.ofNat 4 g.node : NodeId) = n at hn
      obtain ⟨v, hlive, hvlen, hnodes⟩ := hs.live
      have hnone : v.grant n = none := by
        cases hgn : v.grant n with
        | none => rfl
        | some k => exact absurd (hn ▸ hnodes n k hgn) hown
      have hmaps := hE.maps h
      have hbefore : ∀ x ∈ s.map n, x.val < w.val := by
        intro x hx
        obtain ⟨u, k, hu, hk⟩ := live_of_mem_map hmaps hx
        by_contra hge
        rcases Nat.lt_or_ge w.val x.val with hlt | hle
        · simp [hs.free x hlt] at hu
        · obtain rfl : x = w := Fin.ext (by omega)
          obtain rfl : u = v := Option.some.inj (hu.symm.trans hlive)
          simp [hnone] at hk
      have hroom := map_length_le hmaps hbefore
      have hbytes : v.bytes = len * granuleBytes := by rw [Live.bytes, hvlen]
      have hgrantable : s.Grantable w v n g.base :=
        { live := hlive
          long := hvlen ▸ hlen
          none := hnone
          room := by omega
          clear := fun m hm => by
            have hspan := (span_of_mem_mapEntries hmaps hm).1
            have := hclear _ (hs.taken n _ _ _ hspan) hn
            simp only at this
            simp only [MapEntry.overlaps, Bool.and_eq_false_iff, decide_eq_false_iff_not, hbytes]
            omega
          aligned := haligned
          below := hbytes ▸ hbelow }
      have hstep := hs.addGrant (hn ▸ hown) g.base (imageRights g.rights)
      rw [hn] at hstep
      rw [List.foldl_cons, State.installGrant, hnid]
      exact ih (hE.granted _ h hgrantable) hstep hv
    · simp at hv

/-- The windows of an image that the validation passes are installed (R169 steps 2 and 3). -/
theorem installWindows {granules : Nat} (ws : List ImageWindow) {s : State} {i : Nat} {extents : List Extent}
    {ranges : List TakenRange} (h : P s) (hs : s.Loading i ranges) (hi : i + ws.length ≤ 32)
    (hb : badWindow granules i extents ranges ws = none) : P (s.installWindows i ws) := by
  induction ws generalizing s i extents ranges with
  | nil => exact h
  | cons x rest ih =>
    obtain ⟨hlen, taken, hgrants, hrest⟩ := badWindow_cons hb
    rw [List.length_cons] at hi
    have hw : (Fin.ofNat 64 i : WindowId).val = i := Nat.mod_eq_of_lt (by omega)
    have hfree := hs.free (Fin.ofNat 64 i) hw.ge
    generalize hwid : (Fin.ofNat 64 i : WindowId) = w at hw hfree
    generalize hlist : (allocateExplicit x.extent s.freeList).getD s.freeList = free
    have hmade : P (s.makeWindow w x.extent free) :=
      hE.made (s := { s with freeList := free }) _ _ (hE.ledger h rfl) hfree
    have hlife : ∀ y, ((s.makeWindow w x.extent free).window y).life =
        if w = y then some (Live.fresh x.extent) else (s.window y).life := by
      intro y
      rw [State.makeWindow, window_setWindow]
      split <;> rfl
    have hstage : (s.makeWindow w x.extent free).LoadingGrants w x.len [] ranges := by
      refine ⟨⟨_, by rw [hlife, if_pos rfl], rfl, fun n g hg => by simp [Live.grant, Live.fresh] at hg⟩,
        fun y hy => ?_, fun n y b k hy => ?_⟩
      · rw [hlife, if_neg (fun hwy => absurd hy (by simp [hwy]))]
        exact hs.free y (by omega)
      · rw [State.span, hlife] at hy
        split at hy
        · simp [Live.span, Live.grant, Live.fresh] at hy
        · exact hs.taken n y b k hy
    obtain ⟨hP, hL⟩ := hE.installGrants (by omega) hlen x.grants hmade hstage hgrants
    rw [hw] at hL
    rw [State.installWindows, State.installWindow, hwid, hlist]
    exact ih hP hL (by omega) hrest

/-- The installation keeps an enduring property: before it no window is in use (R169, R170). -/
theorem install {s : State} (h : P s) (hfree : ∀ w, (s.window w).life = none) (eeprom : List Byte) :
    P (s.install eeprom) := by
  unfold State.install
  split
  · rename_i m hm
    obtain ⟨hlen, hb⟩ := bootLoad_ok hm
    refine hE.ledger ?_ (endBoot_ledger ..)
    unfold State.installImage
    refine hE.installWindows m.windows (s := { s with settings := s.settings.ofImage m }) (hE.ledger h rfl)
      ⟨fun x _ => hfree x, fun n w b k hs => ?_⟩ (by omega) hb
    have hnone : s.span n w = some (b, k) := hs
    simp [span_of_free (hfree w)] at hnone
  · exact hE.ledger h (endBoot_ledger ..)

/-! ### Events and steps -/

theorem commandCompletion {s : State} (h : P s) (ho : s.homesHold) (t : Taken) : P (runTaken t s).close := by
  refine hE.ledger (s := (runTaken t s).state) ?_ rfl
  unfold runTaken
  split
  · exact hE.complete h ho _ _
  · exact h

omit hE in
/-- An event keeps what its effect outside reset keeps. -/
theorem event {s t : State} {f : State → State} (h : P s) (hf : P (f s)) (ht : Machine.event f s = .next t) : P t := by
  unfold Machine.event at ht
  obtain rfl := Host.Outcome.next.inj ht
  split
  · exact h
  · exact hf

/-- Every event other than the taking of a command keeps an enduring property. -/
theorem exec_event {s t : State} (h : P s) (ho : s.Owned) {i : Instr} (hc : commandRow i = none)
    (ht : exec i s = .next t) : P t := by
  have hcontrol : ∀ value : Word, P (s.writeControl value) := fun value => hE.ledger h (writeControl_ledger ..)
  have hreach : ∀ {x : Nat} {u : State}, s.reach x = some u → P u := by
    intro x u hu
    unfold State.reach at hu
    split at hu
    · obtain rfl := Option.some.inj hu
      exact hE.ledger h rfl
    · simp at hu
  cases i with
  | paramWrite slot value =>
    simp only [Machine.exec, execParamWrite] at ht
    exact event h (hE.ledger h (writeSlot_ledger ..)) ht
  | clearOverrun value =>
    simp only [Machine.exec, execClearOverrun] at ht
    exact event h (hcontrol value) ht
  | clearCmdDone value =>
    simp only [Machine.exec, execClearCmdDone] at ht
    exact event h (hcontrol value) ht
  | softReset value =>
    simp only [Machine.exec, execSoftReset] at ht
    exact event h (hcontrol value) ht
  | deviceReset cause =>
    obtain rfl := Host.Outcome.next.inj ht
    cases cause <;> exact hE.ledger hE.reset rfl
  | resetRelease psz booten =>
    obtain rfl := Host.Outcome.next.inj ht
    split
    · exact hE.ledger h rfl
    · exact h
  | bootInstall eeprom =>
    simp only [Machine.exec, execBootInstall] at ht
    refine event h ?_ ht
    split
    · rename_i hb
      exact hE.install h (ho.boot.2 hb).2.1 eeprom
    · exact h
  | linkUp n =>
    simp only [Machine.exec, execLinkUp] at ht
    refine event h ?_ ht
    split
    · exact hE.ledger h (setLink_ledger ..)
    · exact h
  | linkDown n =>
    simp only [Machine.exec, execLinkDown] at ht
    refine event h ?_ ht
    split
    · exact h
    · exact hE.ledger (hE.dropNode h n) (setLink_ledger ..)
  | hello n identity =>
    simp only [Machine.exec, execHello] at ht
    exact event h (hE.hello h n identity) ht
  | read n u addr len =>
    simp only [Machine.exec, execRead] at ht
    exact event h (hE.arrive h n u _) ht
  | write n u addr len data =>
    simp only [Machine.exec, execWrite] at ht
    refine event h ?_ ht
    split
    · exact hE.arrive h n u _
    · exact hE.ledger h (malformed_ledger ..)
  | revokeAck n number =>
    simp only [Machine.exec, execRevokeAck] at ht
    exact event h (hE.acknowledge h n number) ht
  | malformedMessage n bytes =>
    simp only [Machine.exec, execMalformedMessage] at ht
    refine event h ?_ ht
    split
    · exact hE.ledger h (malformed_ledger ..)
    · exact hE.deliver h n _
  | handToLinkLayer n =>
    simp only [Machine.exec, execHandToLinkLayer] at ht
    refine event h ?_ ht
    split
    · exact h
    · exact hE.ledger h (setPort_ledger ..)
  | transactionOperationEnd c dramFault =>
    simp only [Machine.exec, execTransactionOperationEnd] at ht
    refine event h ?_ ht
    split
    · exact h
    · split
      · exact h
      · split
        · exact h
        · rename_i x hx
          exact hE.operationEnded (hE.ledger h (endOp_ledger ..)) (List.mem_of_find?_eq_some hx) _ _
  | holdExpiry n =>
    simp only [Machine.exec, execHoldExpiry] at ht
    refine event h ?_ ht
    split
    · exact h
    · split
      · exact h
      · exact hE.expireHolds (hreach ‹_›) n _
  | revokeDeadline w n =>
    simp only [Machine.exec, execRevokeDeadline] at ht
    refine event h ?_ ht
    split
    · exact h
    · split
      · exact h
      · exact hE.forceRemoval (hreach ‹_›) w n
  | copyReadEnd dramFault =>
    simp only [Machine.exec, execCopyReadEnd] at ht
    refine event h ?_ ht
    split
    · split
      · exact h
      · exact hE.copyReadEnded (hE.ledger h (endOp_ledger ..)) rfl
    all_goals exact h
  | copyWriteEnd dramFault =>
    simp only [Machine.exec, execCopyWriteEnd] at ht
    refine event h ?_ ht
    split
    · split
      · exact h
      · exact hE.copyWriteEnded (hE.ledger h (endOp_ledger ..)) rfl ho.slots
    all_goals exact h
  | pacingEnd =>
    simp only [Machine.exec, execPacingEnd] at ht
    refine event h ?_ ht
    split
    · split
      · exact h
      · exact hE.ledger (hreach ‹_›) ((startTurn_ledger _).trans (setPhase_ledger ..))
    all_goals exact h
  | commandCompletion =>
    simp only [Machine.exec, execCommandCompletion] at ht
    refine event h ?_ ht
    split
    · exact h
    · exact hE.commandCompletion h ho.homes _
  | _ => simp [commandRow] at hc

/-- Every command and event keeps an enduring property. -/
theorem exec {s t : State} (h : P s) (ho : s.Owned) (i : Instr) (ht : exec i s = .next t) : P t := by
  cases hc : commandRow i with
  | some code =>
    rw [exec_of_commandRow hc] at ht
    exact event h (hE.ledger h (writeCommand_ledger ..)) ht
  | none => exact hE.exec_event h ho hc ht

/-- Every step keeps an enduring property. -/
theorem step {s t : State} (h : P s) (ho : s.Owned) (ht : step s = .next t) : P t := by
  unfold Machine.step at ht
  split at ht
  · obtain rfl := Host.Outcome.next.inj ht
    exact hE.ledger h (tick_ledger s)
  · rename_i i rest _
    have hl : P { s with pending := rest } := hE.ledger h rfl
    exact hE.exec hl ⟨ho.partition, ho.ordered, ho.slots, ho.migrating, ho.homes, ho.boot⟩ i ht

end Enduring

end Sys2Proof.Machine
end

section
/-! SUPPORT. The order of the node maps and of the grant lists is kept by every step (R13, R36, R39 to R41). -/

namespace Sys2Proof.Machine

/-! ### What leaves every window's shape as it was -/

theorem shape_lowerHeld (s : State) (w x : WindowId) (n : NodeId) : (s.lowerHeld w n).shape x = s.shape x :=
  (shape_counts s w x n).2.2.2

theorem shape_faultEntry (s : State) (n : NodeId) (r : FaultReason) (e : HoldEntry) (x : WindowId) :
    (s.faultEntry n r e).shape x = s.shape x := by
  rw [State.faultEntry, shape_of_windows (windows_faultTag ..), shape_lowerHeld]

theorem shape_faultHeld (s : State) (n : NodeId) (hit : HoldEntry → Bool) (r : FaultReason) (x : WindowId) :
    (s.faultHeld n hit r).shape x = s.shape x := by
  have hfold : ∀ (l : List HoldEntry) (s : State), (l.foldl (State.faultEntry n r) s).shape x = s.shape x := by
    intro l
    induction l with
    | nil => exact fun _ => rfl
    | cons e l ih => exact fun s => (ih _).trans (shape_faultEntry ..)
  exact (hfold _ (s.setHold n _)).trans rfl

theorem shape_takeHold (s : State) (n : NodeId) (t : Tag) (q : Request) (f : Matched) (c : Cause) (x : WindowId) :
    (s.takeHold n t q f c).shape x = s.shape x := by
  unfold State.takeHold
  rw [(shape_counts ..).2.2.1]
  rfl

theorem shape_settle (s : State) (n : NodeId) (t : Tag) (q : Request) (x : WindowId) :
    (s.settle n t q).shape x = s.shape x := by
  unfold State.settle
  split
  · exact shape_of_windows ((windows_captureFault ..).trans (windows_send ..)) x
  · unfold State.offerHold
    split
    · exact shape_of_windows (windows_send ..) x
    · exact shape_takeHold ..
  · exact shape_beginExecution ..

theorem dropHolds_frame (s : State) (n : NodeId) (x : WindowId) :
    (s.dropHolds n).shape x = s.shape x ∧ (s.dropHolds n).maps = s.maps := by
  have hfold : ∀ (l : List HoldEntry) (s : State),
      (l.foldl (fun s e => s.lowerHeld e.window n) s).shape x = s.shape x ∧
        (l.foldl (fun s e => s.lowerHeld e.window n) s).maps = s.maps := by
    intro l
    induction l with
    | nil => exact fun _ => ⟨rfl, rfl⟩
    | cons e l ih =>
      intro s
      obtain ⟨h1, h2⟩ := ih (s.lowerHeld e.window n)
      exact ⟨h1.trans (shape_lowerHeld ..), h2.trans (updateLive_maps ..)⟩
  exact hfold (s.hold n) (s.setHold n [])

theorem windows_completeTag (s : State) (t : Transaction) (tag : Tag) : (s.completeTag t tag).windows = s.windows := by
  unfold State.completeTag
  split
  · exact windows_faultTag ..
  · rw [setTag_windows, windows_send]

/-- The tag of an ended transaction is free; nothing else of the ledger changes (R87, R91). -/
theorem completeTag_ledger (s : State) (t : Transaction) (tag : Tag) :
    (s.completeTag t tag).ledger = (s.setTag t.node tag none).ledger := by
  unfold State.completeTag
  split
  · exact faultTag_ledger ..
  · exact setTag_ledger_congr (send_ledger ..) ..

theorem windows_answerTag (s : State) (t : Transaction) : (s.answerTag t).windows = s.windows := by
  unfold State.answerTag
  split
  · rfl
  · exact windows_completeTag ..

/-- The answer to an ended transaction frees its tag; nothing else of the ledger changes. -/
theorem answerTag_ledger (s : State) (t : Transaction) :
    (s.answerTag t).ledger = (t.tag.elim s fun tag => s.setTag t.node tag none).ledger := by
  unfold State.answerTag
  cases t.tag with
  | none => rfl
  | some tag => exact completeTag_ledger ..

theorem maps_answerTag (s : State) (t : Transaction) : (s.answerTag t).maps = s.maps := by
  refine (congrArg Ledger.maps (answerTag_ledger s t)).trans ?_
  cases t.tag <;> rfl

theorem closeRecord_frame (s : State) (t : Transaction) (x : WindowId) :
    (s.closeRecord t).shape x = s.shape x ∧ (s.closeRecord t).maps = s.maps := by
  constructor
  · rw [State.closeRecord, (shape_counts ..).2.1]
    exact shape_of_windows (windows_answerTag s t) x
  · rw [State.closeRecord, State.lowerExecuting, updateLive_maps]
    exact maps_answerTag s t

theorem maps_of_answers {s t : State} (h : t.beyondAnswers = s.beyondAnswers) : t.maps = s.maps :=
  (congrArg State.maps h :)

theorem maps_of_requests {s t : State} (h : t.beyondRequests = s.beyondRequests) : t.maps = s.maps :=
  (congrArg State.maps h :)

/-! ### The invariant -/

/-- What no window's shape and no map shows keeps the maps in order. -/
theorem enduring_mapsOrdered : Enduring State.MapsOrdered where
  maps h := h
  ledger h hl := h.of_ledger hl
  reset := by
    refine mapsOrdered_of_mapOrder (fun w v hv => ?_) fun n => ?_
    · simp [State.reset, State.window, WindowRecord.reset] at hv
    · have hs : State.reset.span n = fun _ => none :=
        funext fun w => span_of_free (by simp [State.reset, State.window, WindowRecord.reset]) n
      have hm : State.reset.map n = [] := by simp [State.reset, State.map]
      rw [hs, hm]
      exact ⟨by simp, by simp, by simp, by simp, by simp⟩
  settle {_ n u q} h _ _ := h.of_shape (maps_of_requests (settle_requests _ n u q)) (shape_settle _ n u q)
  faultHeld n hit r h := h.of_shape (maps_of_answers (faultHeld_answers _ n hit r)) (shape_faultHeld _ n hit r)
  replay n h := h.of_shape (maps_of_requests (replay_requests _ n)) (shape_replay _ n)
  dropTags n h := h.of_shape (dropHolds_frame _ n 0).2 fun w => (dropHolds_frame _ n w).1
  delisted {s} w n h :=
    (h.delist w n).of_shape (maps_of_answers (faultHeld_answers ..)) (shape_faultHeld _ n _ .revoked)
  removed h hg hd _ := h.removed hg hd
  freed generation h hv hg :=
    h.setWindow_bare (fun n => (span_of_life hv n).trans (span_of_no_grants hg n)) fun _ hr => by simp at hr
  made generation home h hfree :=
    h.setWindow_bare (span_of_free hfree) fun _ hr => Option.some.inj hr ▸ rfl
  granted r h hg := h.addGrant hg r
  noted role failed bytes h _ := h.of_shape rfl fun _ => rfl
  closed {s t} h _ := h.of_shape (closeRecord_frame s t 0).2 fun w => (closeRecord_frame s t w).1

/-- Settles O58: what a step can do to the ledger keeps the maps in order, change by change. -/
theorem stepKeepsMapsOrdered : Obligations.StepKeepsMapsOrdered :=
  fun _ _ ho hm ht => enduring_mapsOrdered.step hm ho ht

end Sys2Proof.Machine
end

section
/-! SUPPORT. The counts of windows and grants against tallies of records and hold entries (R9 to R11). -/

namespace Sys2Proof.Machine

/-! ### The two counts -/

/-- The two counts that windows and grants keep (R9). -/
inductive Book where
  | executing
  | held
deriving DecidableEq

/-- A window's count. -/
def Book.ofWindow : Book → Live → Nat
  | .executing, v => v.executing
  | .held, v => v.held

/-- A grant's count. -/
def Book.ofGrant : Book → GrantRecord → Nat
  | .executing, g => g.executing
  | .held, g => g.held

/-- Changes a window's count. -/
def Book.onWindow (f : Nat → Nat) : Book → Live → Live
  | .executing, v => { v with executing := f v.executing }
  | .held, v => { v with held := f v.held }

/-- Changes a grant's count. -/
def Book.onGrant (f : Nat → Nat) : Book → GrantRecord → GrantRecord
  | .executing, g => { g with executing := f g.executing }
  | .held, g => { g with held := f g.held }

/-- Changes one count of a window and of its grant for a node together. -/
def State.adjust (s : State) (b : Book) (f : Nat → Nat) (w : WindowId) (n : NodeId) : State :=
  s.updateLive w fun v => b.onWindow f (v.updateGrant n (b.onGrant f))

theorem raiseExecuting_eq (s : State) (w : WindowId) (n : NodeId) :
    s.raiseExecuting w n = s.adjust .executing (· + 1) w n := rfl

theorem lowerExecuting_eq (s : State) (w : WindowId) (n : NodeId) :
    s.lowerExecuting w n = s.adjust .executing (· - 1) w n := rfl

theorem raiseHeld_eq (s : State) (w : WindowId) (n : NodeId) : s.raiseHeld w n = s.adjust .held (· + 1) w n := rfl

theorem lowerHeld_eq (s : State) (w : WindowId) (n : NodeId) : s.lowerHeld w n = s.adjust .held (· - 1) w n := rfl

section Book

variable (b c : Book) (f : Nat → Nat) (v : Live) (g : GrantRecord)

@[simp] theorem onGrant_node : (b.onGrant f g).node = g.node := by cases b <;> rfl
@[simp] theorem onWindow_grants : (b.onWindow f v).grants = v.grants := by cases b <;> rfl
@[simp] theorem ofGrant_onGrant : b.ofGrant (b.onGrant f g) = f (b.ofGrant g) := by cases b <;> rfl
@[simp] theorem ofWindow_onWindow : b.ofWindow (b.onWindow f v) = f (b.ofWindow v) := by cases b <;> rfl
@[simp] theorem ofWindow_account : b.ofWindow v.account = b.ofWindow v := by cases b <;> rfl
@[simp] theorem ofGrant_account : b.ofGrant g.account = b.ofGrant g := by cases b <;> rfl
@[simp] theorem ofWindow_updateGrant (n : NodeId) (h : GrantRecord → GrantRecord) :
    b.ofWindow (v.updateGrant n h) = b.ofWindow v := by cases b <;> rfl

variable {b c}

theorem ofGrant_onGrant_ne (h : c ≠ b) : c.ofGrant (b.onGrant f g) = c.ofGrant g := by
  match b, c with
  | .executing, .executing => exact absurd rfl h
  | .executing, .held => rfl
  | .held, .executing => rfl
  | .held, .held => exact absurd rfl h

theorem ofWindow_onWindow_ne (h : c ≠ b) : c.ofWindow (b.onWindow f v) = c.ofWindow v := by
  match b, c with
  | .executing, .executing => exact absurd rfl h
  | .executing, .held => rfl
  | .held, .executing => rfl
  | .held, .held => exact absurd rfl h

end Book

/-! ### Counts against a tally -/

/-- A window's count is the sum of a tally over the nodes, and each grant's count is the tally of its node. -/
def Live.CountIs (v : Live) (b : Book) (k : NodeId → Nat) : Prop :=
  b.ofWindow v = (allNodes.map k).sum ∧ ∀ n g, v.grant n = some g → b.ofGrant g = k n

/-- Every window's counts are those of a tally by window and node. -/
def State.CountIs (s : State) (b : Book) (k : WindowId → NodeId → Nat) : Prop :=
  ∀ w v, (s.window w).life = some v → v.CountIs b (k w)

/-- A tally with one more under a window and a node. -/
def bump (k : WindowId → NodeId → Nat) (w : WindowId) (n : NodeId) (x : WindowId) (m : NodeId) : Nat :=
  k x m + if x = w ∧ m = n then 1 else 0

theorem sum_bump (k : WindowId → NodeId → Nat) (w : WindowId) (n : NodeId) :
    (allNodes.map (bump k w n w)).sum = (allNodes.map (k w)).sum + 1 := by
  have hn : ∀ n : Fin 4, n = 0 ∨ n = 1 ∨ n = 2 ∨ n = 3 := by decide
  rcases hn n with rfl | rfl | rfl | rfl <;> simp [bump, allNodes] <;> omega

theorem bump_self (k : WindowId → NodeId → Nat) (w : WindowId) (n : NodeId) : bump k w n w n = k w n + 1 := by
  simp [bump]

theorem bump_of_ne (k : WindowId → NodeId → Nat) {w x : WindowId} {n m : NodeId} (h : ¬(x = w ∧ m = n)) :
    bump k w n x m = k x m := by
  simp [bump, h]

theorem countIs_account (v : Live) (b : Book) (k : NodeId → Nat) : v.account.CountIs b k ↔ v.CountIs b k := by
  simp [Live.CountIs, grant_account]

theorem State.CountIs.of_accounts {s t : State} {b : Book} {k : WindowId → NodeId → Nat} (h : s.CountIs b k)
    (ha : t.accounts = s.accounts) : t.CountIs b k := by
  intro w v hv
  obtain ⟨u, hu, huv⟩ := life_of_accounts ha hv
  rw [← countIs_account, ← huv, countIs_account]
  exact h w u hu

theorem State.CountIs.updateLive {s : State} {b : Book} {k k' : WindowId → NodeId → Nat} (h : s.CountIs b k)
    {w : WindowId} {f : Live → Live} (hf : ∀ v, (s.window w).life = some v → v.CountIs b (k w) → (f v).CountIs b (k' w))
    (hk : ∀ x, x ≠ w → k' x = k x) : (s.updateLive w f).CountIs b k' := by
  intro x v hv
  rw [life_updateLive] at hv
  split at hv
  · rename_i hx
    subst hx
    obtain ⟨u, hu, rfl⟩ := Option.map_eq_some_iff.1 hv
    exact hf u hu (h _ u hu)
  · rename_i hx
    rw [hk x (Ne.symm hx)]
    exact h x v hv

theorem State.CountIs.setWindow {s : State} {b : Book} {k : WindowId → NodeId → Nat} (h : s.CountIs b k) {w : WindowId}
    {r : WindowRecord} (hr : ∀ v, r.life = some v → v.CountIs b (k w)) : (s.setWindow w r).CountIs b k := by
  intro x v hv
  rw [window_setWindow] at hv
  split at hv
  · rename_i hx
    subst hx
    exact hr v hv
  · exact h x v hv

theorem grant_adjusted (b : Book) (f : Nat → Nat) (v : Live) (n m : NodeId) :
    (b.onWindow f (v.updateGrant n (b.onGrant f))).grant m =
      if m = n then (v.grant m).map (b.onGrant f) else v.grant m := by
  rw [← grant_updateGrant v n m _ fun g => onGrant_node b f g]
  simp [Live.grant]

/-- A count adjusted at a window and a node follows a tally adjusted there. -/
theorem State.CountIs.adjust {s : State} {b : Book} {f : Nat → Nat} {k k' : WindowId → NodeId → Nat}
    (h : s.CountIs b k) {w : WindowId} {n : NodeId} (hsum : (allNodes.map (k' w)).sum = f (allNodes.map (k w)).sum)
    (hn : k' w n = f (k w n)) (hk : ∀ x m, ¬(x = w ∧ m = n) → k' x m = k x m) :
    (s.adjust b f w n).CountIs b k' := by
  refine h.updateLive (fun v _ hc => ⟨?_, fun m g hg => ?_⟩) fun x hx => funext fun m => hk x m fun hc => hx hc.1
  · rw [ofWindow_onWindow, ofWindow_updateGrant, hc.1, hsum]
  · rw [grant_adjusted] at hg
    split at hg
    · rename_i hm
      subst hm
      obtain ⟨g', hg', rfl⟩ := Option.map_eq_some_iff.1 hg
      rw [ofGrant_onGrant, hc.2 _ g' hg', hn]
    · rename_i hm
      rw [hc.2 m g hg, hk w m fun hc => hm hc.2]

theorem State.CountIs.adjust_other {s : State} {b c : Book} {f : Nat → Nat} {k : WindowId → NodeId → Nat}
    (h : s.CountIs c k) (hc : c ≠ b) (w : WindowId) (n : NodeId) : (s.adjust b f w n).CountIs c k := by
  refine h.updateLive (fun v _ hv => ⟨?_, fun m g hg => ?_⟩) fun _ _ => rfl
  · rw [ofWindow_onWindow_ne _ _ hc, ofWindow_updateGrant, hv.1]
  · rw [grant_adjusted] at hg
    split at hg
    · obtain ⟨g', hg', rfl⟩ := Option.map_eq_some_iff.1 hg
      rw [ofGrant_onGrant_ne _ _ hc, hv.2 m g' hg']
    · exact hv.2 m g hg

/-- One more is counted where the tally has one more. -/
theorem State.CountIs.raise {s : State} {b : Book} {k : WindowId → NodeId → Nat} (h : s.CountIs b k) (w : WindowId)
    (n : NodeId) : (s.adjust b (· + 1) w n).CountIs b (bump k w n) :=
  h.adjust (sum_bump k w n) (bump_self k w n) fun _ _ => bump_of_ne k

/-- One less is counted where the tally has one less. -/
theorem State.CountIs.lower {s : State} {b : Book} {k : WindowId → NodeId → Nat} {w : WindowId} {n : NodeId}
    (h : s.CountIs b (bump k w n)) : (s.adjust b (· - 1) w n).CountIs b k :=
  h.adjust (by simp [sum_bump]) (by simp [bump_self]) fun _ _ hne => (bump_of_ne k hne).symm

@[simp] theorem adjust_transactions (s : State) (b : Book) (f : Nat → Nat) (w : WindowId) (n : NodeId) :
    (s.adjust b f w n).transactions = s.transactions := updateLive_transactions ..

theorem shape_adjust (s : State) (b : Book) (f : Nat → Nat) (w x : WindowId) (n : NodeId) :
    (s.adjust b f w n).shape x = s.shape x := by
  have hg : ∀ v : Live, (v.updateGrant n (b.onGrant f)).shape = v.shape :=
    fun v => shape_updateGrant v n _ fun g => by cases b <;> rfl
  refine shape_updateLive _ _ _ _ fun v => (Eq.trans ?_ (hg v))
  cases b <;> rfl

theorem grant_isSome_of_shape {s t : State} {w : WindowId} (h : t.shape w = s.shape w) (n : NodeId) :
    (t.grant w n).isSome = (s.grant w n).isSome := by
  have hl : (t.window w).life.map Live.shape = (s.window w).life.map Live.shape := congrArg Prod.snd h
  have hs : ∀ u : State, (u.grant w n).isSome = (((u.window w).life.map Live.shape).bind fun v => v.grant n).isSome := by
    intro u
    cases hu : (u.window w).life with
    | none => simp [grant_of_free hu]
    | some v => simp [grant_of_life hu, grant_shape]
  rw [hs, hs, hl]

/-! ### The tallies of records and of hold entries -/

/-- The transaction records of a window and a node. -/
def recordTally (xs : List Transaction) (w : WindowId) (n : NodeId) : Nat :=
  xs.countP fun x => x.window == w && x.node == n

/-- The hold entries of a node that name a window, by the queues `q`. -/
def entryTally (q : NodeId → List HoldEntry) (w : WindowId) (n : NodeId) : Nat := (q n).countP fun e => e.window == w

theorem recordTally_cons (x : Transaction) (xs : List Transaction) :
    recordTally (x :: xs) = bump (recordTally xs) x.window x.node := by
  funext w n
  simp only [recordTally, List.countP_cons, bump, Bool.and_eq_true, beq_iff_eq, @eq_comm _ w, @eq_comm _ n]

theorem recordTally_perm {xs ys : List Transaction} (h : xs.Perm ys) : recordTally xs = recordTally ys := by
  funext w n
  exact h.countP_eq _

/-- Every record of a window stands under one node. -/
theorem sum_recordTally (xs : List Transaction) (w : WindowId) :
    (allNodes.map (recordTally xs w)).sum = (xs.filter fun x => x.window == w).length := by
  induction xs with
  | nil => simp [recordTally, allNodes]
  | cons x xs ih =>
    rw [recordTally_cons]
    by_cases hx : x.window = w
    · subst hx
      simp [sum_bump, ih]
    · have : bump (recordTally xs) x.window x.node w = recordTally xs w :=
        funext fun m => bump_of_ne _ fun hc => hx hc.1.symm
      simp [this, ih, hx]

theorem recordTally_eq_zero {xs : List Transaction} {w : WindowId} {n : NodeId}
    (h : ∀ x ∈ xs, x.window = w → x.node ≠ n) : recordTally xs w n = 0 := by
  simpa [recordTally] using h

theorem recordTally_map {xs : List Transaction} {f : Transaction → Transaction}
    (h : ∀ x ∈ xs, (f x).window = x.window ∧ (f x).node = x.node) : recordTally (xs.map f) = recordTally xs := by
  funext w n
  simp only [recordTally, List.countP_map]
  refine List.countP_congr fun x hx => ?_
  simp [h x hx]

theorem entryTally_eq_zero {q : NodeId → List HoldEntry} {w : WindowId} {n : NodeId}
    (h : ∀ e ∈ q n, e.window ≠ w) : entryTally q w n = 0 := by
  simpa [entryTally] using h

/-- An entry that leaves a queue takes one from the tally. -/
theorem entryTally_of_perm {q : NodeId → List HoldEntry} {n : NodeId} {e : HoldEntry} {l : List HoldEntry}
    (h : (q n).Perm (e :: l)) : entryTally q = bump (entryTally (Function.update q n l)) e.window n := by
  funext w m
  by_cases hm : m = n
  · subst hm
    simp only [entryTally, bump, Function.update_self, h.countP_eq, List.countP_cons, beq_iff_eq, and_true,
      @eq_comm _ w]
  · simp [entryTally, bump, hm]

theorem entryTally_congr {q r : NodeId → List HoldEntry} (h : ∀ n, (q n).Perm (r n)) : entryTally q = entryTally r := by
  funext w n
  exact (h n).countP_eq _

/-! ### The law of R9 -/

/-- The counts are those of the transaction records and of the queues `q`, and every record stands under a grant (R9 to
R11). -/
structure State.Tallied (s : State) (q : NodeId → List HoldEntry) : Prop where
  executing : s.CountIs .executing (recordTally s.transactions)
  held : s.CountIs .held (entryTally q)
  records : ∀ x ∈ s.transactions, (s.grant x.window x.node).isSome

/-- Tags tell the held requests of the queues `q` from the executing ones, and records have names of their own (R74,
R76, R96). -/
structure State.Named (s : State) (q : NodeId → List HoldEntry) : Prop where
  heldOnce : ∀ n, ((q n).map fun e => e.tag).Nodup
  heldTag : ∀ n, ∀ e ∈ q n, ∃ x, s.tag n e.tag = some x ∧ x.phase = .held
  idsOnce : (s.transactions.map fun x => x.id).Nodup
  idsPast : ∀ x ∈ s.transactions, x.id < s.nextTransaction
  recordTag : ∀ x ∈ s.transactions, ∀ t, x.tag = some t → ∃ y, s.tag x.node t = some y ∧ y.phase = .executing x.id

/-- An entry's tag keeps the request it stands for, which lies in the span of the entry's own listed grant (R81, R96,
R106). -/
def State.Backs (s : State) (n : NodeId) (e : HoldEntry) : Prop :=
  ∃ b k x, s.span n e.window = some (b, k) ∧ s.tag n e.tag = some x ∧ x.window = e.window ∧ x.chunk = e.chunk ∧
    x.addr = b + x.offset ∧ 1 ≤ x.len ∧ x.offset + x.len ≤ k

/-- The law of R9 with what carries it through every event, the hold queues being `q`. -/
structure State.Sound (s : State) (q : NodeId → List HoldEntry) : Prop where
  maps : s.MapsOrdered
  tallied : s.Tallied q
  named : s.Named q
  backed : ∀ n, ∀ e ∈ q n, s.Backs n e

/-- Under ordered maps an entry is backed exactly when it stands for a request under its listed grant. -/
theorem backs_iff {s : State} (hm : s.MapsOrdered) {n : NodeId} {e : HoldEntry} :
    s.Backs n e ↔ e.window ∈ s.map n ∧
      ∃ x m, s.tag n e.tag = some x ∧ s.mapEntry n e.window = some m ∧ e.standsFor x m := by
  constructor
  · rintro ⟨b, k, x, hs, ht, hw, hc, ha, hl, ho⟩
    obtain ⟨m, hmw, hb, hk⟩ := mapEntry_of_span hs
    exact ⟨mem_map_of_span hm hs, x, m, ht, hmw, hw, hc, by rw [hb]; exact ha, hl, by rw [hk]; exact ho⟩
  · rintro ⟨hw, x, m, ht, hmw, h1, h2, h3, h4, h5⟩
    obtain ⟨⟨b, k⟩, hs⟩ := span_of_mem_map hm hw
    obtain ⟨hb, hk⟩ := mapEntry_span hs hmw
    simp only at hb hk
    exact ⟨b, k, x, hs, ht, h1, h2, hb ▸ h3, h4, hk ▸ h5⟩

theorem countIs_executing_iff (s : State) :
    s.CountIs .executing (recordTally s.transactions) ↔
      (∀ w v, (s.window w).life = some v → v.executing = (s.recordsOf w).length) ∧
        ∀ w n v g, s.grant w n = some (v, g) → g.executing = ((s.recordsOf w).filter fun x => x.node == n).length := by
  have hn : ∀ w n, recordTally s.transactions w n = ((s.recordsOf w).filter fun x => x.node == n).length := by
    intro w n
    rw [State.recordsOf, List.filter_filter, recordTally, List.countP_eq_length_filter]
    simp only [Bool.and_comm]
  simp only [State.CountIs, Live.CountIs, sum_recordTally, grant_eq_some_iff, hn]
  exact ⟨fun h => ⟨fun w v hv => (h w v hv).1, fun w n v g hg => (h w v hg.1).2 n g hg.2⟩,
    fun h w v hv => ⟨h.1 w v hv, fun n g hg => h.2 w n v g ⟨hv, hg⟩⟩⟩

theorem countIs_held_iff (s : State) :
    s.CountIs .held (entryTally s.hold) ↔
      (∀ w v, (s.window w).life = some v → v.held = (allNodes.map fun n => (s.heldUnder w n).length).sum) ∧
        ∀ w n v g, s.grant w n = some (v, g) → g.held = (s.heldUnder w n).length := by
  have hn : ∀ w, entryTally s.hold w = fun n => (s.heldUnder w n).length :=
    fun w => funext fun n => List.countP_eq_length_filter
  simp only [State.CountIs, Live.CountIs, grant_eq_some_iff, hn]
  exact ⟨fun h => ⟨fun w v hv => (h w v hv).1, fun w n v g hg => (h w v hg.1).2 n g hg.2⟩,
    fun h w v hv => ⟨h.1 w v hv, fun n g hg => h.2 w n v g ⟨hv, hg⟩⟩⟩

theorem State.CountsAgree.sound {s : State} (hc : s.CountsAgree) (ht : s.TagsAgree) (hm : s.MapsOrdered) :
    s.Sound s.hold where
  maps := hm
  tallied :=
    { executing := (countIs_executing_iff s).2 ⟨hc.windowExecuting, hc.grantExecuting⟩
      held := (countIs_held_iff s).2 ⟨hc.windowHeld, hc.grantHeld⟩
      records := hc.recordGrant }
  named := ⟨ht.heldOnce, ht.heldTag, ht.idsOnce, ht.idsPast, ht.recordTag⟩
  backed n e he := (backs_iff hm).2 ⟨hc.entryListed n e he, hc.entryRequest n e he⟩

theorem State.Sound.countsAgree {s : State} (h : s.Sound s.hold) : s.CountsAgree where
  windowExecuting := ((countIs_executing_iff s).1 h.tallied.executing).1
  windowHeld := ((countIs_held_iff s).1 h.tallied.held).1
  grantExecuting := ((countIs_executing_iff s).1 h.tallied.executing).2
  grantHeld := ((countIs_held_iff s).1 h.tallied.held).2
  recordGrant := h.tallied.records
  entryListed n e he := ((backs_iff h.maps).1 (h.backed n e he)).1
  entryRequest n e he := ((backs_iff h.maps).1 (h.backed n e he)).2

end Sys2Proof.Machine
end

section
/-! SUPPORT. The law of R9 through the changes of hold queues, tags and records. -/

namespace Sys2Proof.Machine

/-! ### States that agree on what the law reads -/

theorem State.Tallied.congr {s t : State} {q r : NodeId → List HoldEntry} (h : s.Tallied q)
    (ha : t.accounts = s.accounts) (hx : t.transactions = s.transactions) (hq : entryTally q = entryTally r) :
    t.Tallied r where
  executing := by
    rw [hx]
    exact h.executing.of_accounts ha
  held := by
    rw [← hq]
    exact h.held.of_accounts ha
  records x hm := by
    rw [grant_isSome_of_accounts ha]
    exact h.records x (hx ▸ hm)

theorem State.Named.congr {s t : State} {q r : NodeId → List HoldEntry} (h : s.Named q)
    (ht : ∀ n u, t.tag n u = s.tag n u) (hx : t.transactions = s.transactions)
    (hn : t.nextTransaction = s.nextTransaction) (hq : ∀ n, (q n).Perm (r n)) : t.Named r where
  heldOnce n := ((hq n).map _).nodup_iff.1 (h.heldOnce n)
  heldTag n e he := by
    rw [ht]
    exact h.heldTag n e ((hq n).mem_iff.2 he)
  idsOnce := by
    rw [hx]
    exact h.idsOnce
  idsPast := by
    rw [hx, hn]
    exact h.idsPast
  recordTag := by
    simp only [hx, ht]
    exact h.recordTag

theorem State.Backs.congr {s t : State} {n : NodeId} {e : HoldEntry} (h : s.Backs n e)
    (hs : t.span n e.window = s.span n e.window) (ht : t.tag n e.tag = s.tag n e.tag) : t.Backs n e := by
  obtain ⟨b, k, x, h1, h2, h3⟩ := h
  exact ⟨b, k, x, hs.trans h1, ht.trans h2, h3⟩

theorem State.Tallied.of_ledger {s t : State} {q : NodeId → List HoldEntry} (h : s.Tallied q)
    (hl : t.ledger = s.ledger) : t.Tallied q :=
  h.congr (accounts_of_ledger hl) (transactions_of_ledger hl) rfl

theorem State.Named.of_ledger {s t : State} {q : NodeId → List HoldEntry} (h : s.Named q)
    (hl : t.ledger = s.ledger) : t.Named q :=
  h.congr (tag_of_ledger hl) (transactions_of_ledger hl) (nextTransaction_of_ledger hl) fun _ => List.Perm.refl _

theorem State.Sound.of_ledger {s t : State} {q : NodeId → List HoldEntry} (h : s.Sound q) (hl : t.ledger = s.ledger) :
    t.Sound q where
  maps := h.maps.of_ledger hl
  tallied := h.tallied.of_ledger hl
  named := h.named.of_ledger hl
  backed n e he := (h.backed n e he).congr (span_of_accounts (accounts_of_ledger hl) ..) (tag_of_ledger hl ..)

/-- The law does not read the hold queues of the state itself: it is told them. -/
theorem State.Sound.setHold {s : State} {q : NodeId → List HoldEntry} (h : s.Sound q) (n : NodeId)
    (l : List HoldEntry) : (s.setHold n l).Sound q where
  maps := h.maps.of_shape rfl fun _ => rfl
  tallied := h.tallied.congr rfl rfl rfl
  named := h.named.congr (fun _ _ => rfl) rfl rfl fun _ => List.Perm.refl _
  backed n e he := (h.backed n e he).congr rfl rfl

theorem hold_setHold_eq (s : State) (n : NodeId) (l : List HoldEntry) :
    (s.setHold n l).hold = Function.update s.hold n l := by
  funext m
  by_cases hm : m = n
  · subst hm
    simp
  · simp [hm, Ne.symm hm]

/-! ### The count of one record or entry -/

theorem State.Tallied.raiseHeld {s : State} {q r : NodeId → List HoldEntry} (h : s.Tallied q) {w : WindowId}
    {n : NodeId} (hr : entryTally r = bump (entryTally q) w n) : (s.raiseHeld w n).Tallied r := by
  rw [raiseHeld_eq]
  refine ⟨?_, ?_, ?_⟩
  · rw [adjust_transactions]
    exact h.executing.adjust_other (b := .held) (by decide) w n
  · rw [hr]
    exact h.held.raise w n
  · rw [adjust_transactions]
    exact fun x hx => (grant_isSome_of_shape (shape_adjust ..) _).trans (h.records x hx)

theorem State.Tallied.lowerHeld {s : State} {q r : NodeId → List HoldEntry} (h : s.Tallied q) {w : WindowId}
    {n : NodeId} (hr : entryTally q = bump (entryTally r) w n) : (s.lowerHeld w n).Tallied r := by
  rw [lowerHeld_eq]
  refine ⟨?_, ?_, ?_⟩
  · rw [adjust_transactions]
    exact h.executing.adjust_other (b := .held) (by decide) w n
  · have hb := h.held
    rw [hr] at hb
    exact hb.lower
  · rw [adjust_transactions]
    exact fun x hx => (grant_isSome_of_shape (shape_adjust ..) _).trans (h.records x hx)

/-- A record that is made under a grant is counted (R10). -/
theorem State.Tallied.addRecord {s t : State} {q : NodeId → List HoldEntry} (h : s.Tallied q) {x : Transaction}
    (ha : t.accounts = s.accounts) (hx : t.transactions = s.transactions ++ [x])
    (hg : (s.grant x.window x.node).isSome) : (t.raiseExecuting x.window x.node).Tallied q := by
  rw [raiseExecuting_eq]
  refine ⟨?_, ?_, ?_⟩
  · rw [adjust_transactions, hx, recordTally_perm (List.perm_append_singleton x _),
      recordTally_cons]
    exact (h.executing.of_accounts ha).raise _ _
  · exact (h.held.of_accounts ha).adjust_other (b := .executing) (by decide) _ _
  · rw [adjust_transactions, hx]
    intro y hy
    rw [grant_isSome_of_shape (shape_adjust t .executing (· + 1) x.window y.window x.node),
      grant_isSome_of_accounts ha]
    rcases List.mem_append.1 hy with hy | hy
    · exact h.records y hy
    · rw [List.mem_singleton.1 hy]
      exact hg

/-- A record that leaves is counted no more (R10). -/
theorem State.Tallied.dropRecord {s t : State} {q : NodeId → List HoldEntry} (h : s.Tallied q) {x : Transaction}
    (ha : t.accounts = s.accounts) (hx : s.transactions.Perm (x :: t.transactions)) :
    (t.lowerExecuting x.window x.node).Tallied q := by
  rw [lowerExecuting_eq]
  refine ⟨?_, ?_, ?_⟩
  · have hb := h.executing.of_accounts ha
    rw [recordTally_perm hx, recordTally_cons] at hb
    rw [adjust_transactions]
    exact hb.lower
  · exact (h.held.of_accounts ha).adjust_other (b := .executing) (by decide) _ _
  · rw [adjust_transactions]
    intro y hy
    rw [grant_isSome_of_shape (shape_adjust t .executing (· - 1) x.window y.window x.node),
      grant_isSome_of_accounts ha]
    exact h.records y (hx.mem_iff.2 (List.mem_cons_of_mem _ hy))

/-! ### The tag of one record or entry -/

/-- The entry of a queue that has a tag is the only one that has it. -/
theorem State.Named.tag_ne {s : State} {q : NodeId → List HoldEntry} (h : s.Named q) {n : NodeId} {e e' : HoldEntry}
    {l : List HoldEntry} (hq : (q n).Perm (e :: l)) (he : e' ∈ l) : e'.tag ≠ e.tag := by
  have hn := ((hq.map fun e => e.tag).nodup_iff.1 (h.heldOnce n))
  rw [List.map_cons, List.nodup_cons] at hn
  exact fun hc => hn.1 (hc ▸ List.mem_map_of_mem he)

/-- No record has the tag of a held entry. -/
theorem State.Named.record_tag_ne {s : State} {q : NodeId → List HoldEntry} (h : s.Named q) {n : NodeId}
    {e : HoldEntry} (he : e ∈ q n) {x : Transaction} (hx : x ∈ s.transactions) (hn : x.node = n) :
    x.tag ≠ some e.tag := by
  intro hc
  obtain ⟨y, hy, hp⟩ := h.recordTag x hx _ hc
  obtain ⟨z, hz, hp'⟩ := h.heldTag n e he
  rw [hn, hz] at hy
  obtain rfl := Option.some.inj hy
  simp [hp] at hp'

/-- An entry leaves a queue and its tag takes any value: the other requests keep their names. -/
theorem State.Named.dropEntry {s : State} {q : NodeId → List HoldEntry} (h : s.Named q) {n : NodeId} {e : HoldEntry}
    {l : List HoldEntry} (hq : (q n).Perm (e :: l)) (y : Option TagEntry) :
    (s.setTag n e.tag y).Named (Function.update q n l) where
  heldOnce m := by
    by_cases hm : m = n
    · subst hm
      rw [Function.update_self]
      exact (List.nodup_cons.1 ((hq.map fun e => e.tag).nodup_iff.1 (h.heldOnce m))).2
    · rw [Function.update_of_ne hm]
      exact h.heldOnce m
  heldTag m e' he := by
    by_cases hm : m = n
    · subst hm
      rw [Function.update_self] at he
      rw [tag_setTag, if_neg fun hc => h.tag_ne hq he hc.2.symm]
      exact h.heldTag m e' (hq.mem_iff.2 (List.mem_cons_of_mem _ he))
    · rw [Function.update_of_ne hm] at he
      rw [tag_setTag, if_neg fun hc => hm hc.1.symm]
      exact h.heldTag m e' he
  idsOnce := h.idsOnce
  idsPast := h.idsPast
  recordTag x hx t ht := by
    rw [tag_setTag, if_neg]
    · exact h.recordTag x hx t ht
    · rintro ⟨hn, rfl⟩
      exact h.record_tag_ne (hq.mem_iff.2 (List.mem_cons_self ..)) hx hn.symm ht

/-- An entry joins a queue under a tag that is neither held nor executing. -/
theorem State.Named.addEntry {s : State} {q r : NodeId → List HoldEntry} (h : s.Named q) {n : NodeId} {e : HoldEntry}
    {l : List HoldEntry} (hr : (r n).Perm (e :: l)) (hl : l = q n) (ho : ∀ m, m ≠ n → r m = q m)
    (hfree : ∀ e' ∈ q n, e'.tag ≠ e.tag) (hrec : ∀ x ∈ s.transactions, x.node = n → x.tag ≠ some e.tag) {y : TagEntry}
    (hy : y.phase = .held) : (s.setTag n e.tag (some y)).Named r where
  heldOnce m := by
    by_cases hm : m = n
    · subst hm
      refine (hr.map fun e => e.tag).nodup_iff.2 (List.nodup_cons.2 ⟨fun hc => ?_, hl ▸ h.heldOnce m⟩)
      obtain ⟨e', he', ht⟩ := List.mem_map.1 hc
      exact hfree e' (hl ▸ he') ht
    · rw [ho m hm]
      exact h.heldOnce m
  heldTag m e' he := by
    rw [tag_setTag]
    split
    · exact ⟨y, rfl, hy⟩
    · rename_i hc
      by_cases hm : m = n
      · subst hm
        rcases List.mem_cons.1 (hr.mem_iff.1 he) with rfl | he
        · exact absurd ⟨rfl, rfl⟩ hc
        · exact h.heldTag m e' (hl ▸ he)
      · exact h.heldTag m e' (ho m hm ▸ he)
  idsOnce := h.idsOnce
  idsPast := h.idsPast
  recordTag x hx t ht := by
    rw [tag_setTag, if_neg]
    · exact h.recordTag x hx t ht
    · rintro ⟨hn, rfl⟩
      exact hrec x hx hn.symm ht

/-- A record is made under a tag that is neither held nor executing (R76, R84). -/
theorem State.Named.addRecord {s t : State} {q : NodeId → List HoldEntry} (h : s.Named q) {x : Transaction} {u : Tag}
    {y : TagEntry} (hid : x.id = s.nextTransaction) (hu : x.tag = some u) (hy : y.phase = .executing x.id)
    (ht : ∀ m v, t.tag m v = if x.node = m ∧ u = v then some y else s.tag m v)
    (hx : t.transactions = s.transactions ++ [x]) (hn : t.nextTransaction = s.nextTransaction + 1)
    (hfree : ∀ e ∈ q x.node, e.tag ≠ u) (hrec : ∀ z ∈ s.transactions, z.node = x.node → z.tag ≠ some u) :
    t.Named q where
  heldOnce := h.heldOnce
  heldTag m e he := by
    rw [ht, if_neg]
    · exact h.heldTag m e he
    · rintro ⟨rfl, hc⟩
      exact hfree e he hc.symm
  idsOnce := by
    rw [hx, List.map_append, List.map_singleton]
    refine (List.perm_append_singleton ..).nodup_iff.2 (List.nodup_cons.2 ⟨fun hc => ?_, h.idsOnce⟩)
    obtain ⟨z, hz, hzx⟩ := List.mem_map.1 hc
    have := h.idsPast z hz
    omega
  idsPast z hz := by
    rw [hx] at hz
    rw [hn]
    rcases List.mem_append.1 hz with hz | hz
    · exact (h.idsPast z hz).trans (Nat.lt_succ_self _)
    · rw [List.mem_singleton.1 hz]
      omega
  recordTag z hz v hv := by
    rw [hx] at hz
    rw [ht]
    rcases List.mem_append.1 hz with hz | hz
    · rw [if_neg]
      · exact h.recordTag z hz v hv
      · rintro ⟨hc, rfl⟩
        exact hrec z hz hc.symm hv
    · obtain rfl := List.mem_singleton.1 hz
      rw [if_pos ⟨rfl, Option.some.inj (hu.symm.trans hv)⟩]
      exact ⟨y, rfl, hy⟩

/-! ### One held entry -/

/-- A held entry leaves its queue with a fault (R91, R106). -/
theorem faultEntry_keeps {s : State} {q : NodeId → List HoldEntry} (hT : s.Tallied q) (hN : s.Named q) {n : NodeId}
    {e : HoldEntry} {l : List HoldEntry} (hq : (q n).Perm (e :: l)) (r : FaultReason) :
    (s.faultEntry n r e).Tallied (Function.update q n l) ∧ (s.faultEntry n r e).Named (Function.update q n l) := by
  have hl : (s.faultEntry n r e).ledger = ((s.lowerHeld e.window n).setTag n e.tag none).ledger := faultTag_ledger ..
  have hT' : (s.lowerHeld e.window n).Tallied (Function.update q n l) := hT.lowerHeld (entryTally_of_perm hq)
  have hN' : (s.lowerHeld e.window n).Named q :=
    hN.congr (fun m u => by rw [State.tag, State.lowerHeld, updateLive_tags]; rfl) (updateLive_transactions ..)
      (updateLive_nextTransaction ..) fun _ => List.Perm.refl _
  exact ⟨(hT'.congr (t := (s.lowerHeld e.window n).setTag n e.tag none) rfl rfl rfl).of_ledger hl,
    (hN'.dropEntry hq none).of_ledger hl⟩

theorem tag_faultEntry (s : State) (n m : NodeId) (r : FaultReason) (e : HoldEntry) (u : Tag) :
    (s.faultEntry n r e).tag m u = if n = m ∧ e.tag = u then none else s.tag m u := by
  rw [State.faultEntry, tag_of_ledger (faultTag_ledger (s.lowerHeld e.window n) n e.tag r), tag_setTag]
  split
  · rfl
  · rw [State.tag, State.lowerHeld, updateLive_tags]
    rfl

theorem foldl_faultEntry_keeps (n : NodeId) (r : FaultReason) (kept l : List HoldEntry) {s : State}
    {q : NodeId → List HoldEntry} (hT : s.Tallied q) (hN : s.Named q) (hq : (q n).Perm (l ++ kept)) :
    (l.foldl (State.faultEntry n r) s).Tallied (Function.update q n kept) ∧
      (l.foldl (State.faultEntry n r) s).Named (Function.update q n kept) ∧
      ∀ m u, (n = m → u ∉ l.map fun e => e.tag) → (l.foldl (State.faultEntry n r) s).tag m u = s.tag m u := by
  induction l generalizing s q with
  | nil =>
    have hp : ∀ m, (q m).Perm (Function.update q n kept m) := by
      intro m
      by_cases hm : m = n
      · subst hm
        simpa using hq
      · simp [hm]
    exact ⟨hT.congr rfl rfl (entryTally_congr hp), hN.congr (fun _ _ => rfl) rfl rfl hp, fun _ _ _ => rfl⟩
  | cons e l ih =>
    obtain ⟨hT', hN'⟩ := faultEntry_keeps hT hN (l := l ++ kept) hq r
    obtain ⟨h1, h2, h3⟩ := ih hT' hN' (by simp)
    rw [Function.update_idem] at h1 h2
    refine ⟨h1, h2, fun m u hu => ?_⟩
    rw [List.foldl_cons, h3 m u fun hm hc => hu hm (List.mem_cons_of_mem _ hc), tag_faultEntry, if_neg]
    rintro ⟨hm, rfl⟩
    exact hu hm (List.mem_cons_self ..)

/-- Entries made hopeless leave one node's queue; the law of R9 and what backs the entries that stay are kept (R106). -/
theorem faultHeld_keeps {s : State} (hT : s.Tallied s.hold) (hN : s.Named s.hold) (n : NodeId) (hit : HoldEntry → Bool)
    (r : FaultReason) :
    (s.faultHeld n hit r).hold = Function.update s.hold n ((s.hold n).filter fun e => !hit e) ∧
      (s.faultHeld n hit r).Tallied (s.faultHeld n hit r).hold ∧ (s.faultHeld n hit r).Named (s.faultHeld n hit r).hold ∧
      ∀ m, ∀ e ∈ (s.faultHeld n hit r).hold m, s.Backs m e → (s.faultHeld n hit r).Backs m e := by
  have hq : (s.hold n).Perm ((s.hold n).filter hit ++ (s.hold n).filter fun e => !hit e) :=
    (List.filter_append_perm hit (s.hold n)).symm
  have hT0 : (s.setHold n ((s.hold n).filter fun e => !hit e)).Tallied s.hold :=
    hT.congr rfl rfl rfl
  have hN0 : (s.setHold n ((s.hold n).filter fun e => !hit e)).Named s.hold :=
    hN.congr (fun _ _ => rfl) rfl rfl fun _ => List.Perm.refl _
  obtain ⟨h1, h2, h3⟩ := foldl_faultEntry_keeps n r _ _ hT0 hN0 hq
  have hholds : ∀ (l : List HoldEntry) (s : State), (l.foldl (State.faultEntry n r) s).hold = s.hold := by
    intro l
    induction l with
    | nil => exact fun _ => rfl
    | cons e l ih =>
      intro s
      rw [List.foldl_cons, ih, State.faultEntry, hold_of_ledger (faultTag_ledger ..)]
      exact funext fun m => congrArg (Table.get · m) (updateLive_holds ..)
  have hh : (s.faultHeld n hit r).hold = Function.update s.hold n ((s.hold n).filter fun e => !hit e) := by
    rw [State.faultHeld, hholds, hold_setHold_eq]
  refine ⟨hh, hh ▸ h1, hh ▸ h2, fun m e he hb => hb.congr (span_of_shape (shape_faultHeld ..) _) ?_⟩
  refine h3 m e.tag fun hm hc => ?_
  subst hm
  rw [hh, Function.update_self] at he
  have hn := (hq.map fun e => e.tag).nodup_iff.1 (hN.heldOnce n)
  rw [List.map_append] at hn
  exact (List.nodup_append.1 hn).2.2 _ hc _ (List.mem_map_of_mem he) rfl

theorem State.Sound.faultHeld {s : State} (h : s.Sound s.hold) (n : NodeId) (hit : HoldEntry → Bool)
    (r : FaultReason) : (s.faultHeld n hit r).Sound (s.faultHeld n hit r).hold := by
  obtain ⟨hh, hT, hN, hB⟩ := faultHeld_keeps h.tallied h.named n hit r
  refine ⟨enduring_mapsOrdered.faultHeld n hit r h.maps, hT, hN, fun m e he => hB m e he (h.backed m e ?_)⟩
  rw [hh] at he
  by_cases hm : m = n
  · subst hm
    rw [Function.update_self] at he
    exact List.mem_of_mem_filter he
  · rwa [Function.update_of_ne hm] at he

end Sys2Proof.Machine
end

section
/-! SUPPORT. Every change of the ledger keeps the law of R9, and so does every step. -/

namespace Sys2Proof.Machine

/-! ### What a lookup finds -/

/-- A request that is held or executes was found in the span of a listed grant, and fits in it (R81, R82). -/
theorem verdict_found {s : State} {n : NodeId} {k : Kind} {addr len : Nat} {earlier : List HoldEntry} {f : Matched}
    (h : s.verdict n k addr len earlier = .execute f ∨ ∃ c, s.verdict n k addr len earlier = .hold f c) :
    ∃ m, s.entryAt n addr = some m ∧ addr + len ≤ m.grant.base + m.live.bytes ∧ f = m.found (addr - m.grant.base) := by
  unfold State.verdict at h
  split at h
  · simp at h
  · rename_i m hm
    split at h
    · simp at h
    · rename_i hfit
      refine ⟨m, hm, by omega, ?_⟩
      split at h
      · unfold State.windowVerdict at h
        split_ifs at h <;> simp at h <;> exact h.symm
      · simp at h

theorem grant_isSome_of_span {s : State} {n : NodeId} {w : WindowId} {b k : Nat} (h : s.span n w = some (b, k)) :
    (s.grant w n).isSome := by
  obtain ⟨v, g, hg, -⟩ := span_eq_some_iff.1 h
  simp [hg]

/-! ### Holding and executing -/

theorem updateLive_tag (s : State) (w : WindowId) (f : Live → Live) (n : NodeId) (u : Tag) :
    (s.updateLive w f).tag n u = s.tag n u := congrArg (fun t => Table.get (Table.get t n) u) (updateLive_tags s w f)

theorem updateLive_hold (s : State) (w : WindowId) (f : Live → Live) : (s.updateLive w f).hold = s.hold :=
  funext fun n => congrArg (Table.get · n) (updateLive_holds s w f)

/-- The hold entry of a request that is held now (R96, R97). -/
def State.newEntry (s : State) (u : Tag) (f : Matched) (c : Cause) : HoldEntry :=
  { tag := u, window := f.window, chunk := f.chunk, cause := c, expiry := s.now + s.settings.holdLimit.toNat }

section TakeHold

variable (s : State) (n : NodeId) (u : Tag) (q : Request) (f : Matched) (c : Cause)

theorem takeHold_eq : s.takeHold n u q f c =
    ((s.setHold n (s.hold n ++ [s.newEntry u f c])).setTag n u (some (q.heldEntry f))).raiseHeld f.window n := rfl

theorem hold_takeHold :
    (s.takeHold n u q f c).hold = Function.update s.hold n (s.hold n ++ [s.newEntry u f c]) := by
  rw [takeHold_eq, State.raiseHeld, updateLive_hold]
  exact hold_setHold_eq ..

theorem tag_takeHold (m : NodeId) (v : Tag) :
    (s.takeHold n u q f c).tag m v = if n = m ∧ u = v then some (q.heldEntry f) else s.tag m v := by
  rw [takeHold_eq, State.raiseHeld, updateLive_tag, tag_setTag]
  rfl

end TakeHold

/-- No hold entry of a node has a tag that is free. -/
theorem State.Named.tag_ne_of_free {s : State} {q : NodeId → List HoldEntry} (h : s.Named q) {n : NodeId} {u : Tag}
    (hu : s.tag n u = none) : ∀ e ∈ q n, e.tag ≠ u := by
  rintro e he rfl
  obtain ⟨x, hx, -⟩ := h.heldTag n e he
  simp [hu] at hx

/-- No record of a node has a tag that is free. -/
theorem State.Named.record_tag_ne_of_free {s : State} {q : NodeId → List HoldEntry} (h : s.Named q) {n : NodeId}
    {u : Tag} (hu : s.tag n u = none) : ∀ x ∈ s.transactions, x.node = n → x.tag ≠ some u := by
  rintro x hx rfl hc
  obtain ⟨y, hy, -⟩ := h.recordTag x hx u hc
  simp [hu] at hy

/-- The law for one more entry: it is enough that the others are backed as before and that the new one is. -/
theorem State.Sound.addEntry {s t : State} {q r : NodeId → List HoldEntry} (h : s.Sound q) {n : NodeId} {e : HoldEntry}
    (hr : r = Function.update q n (q n ++ [e])) (hm : t.MapsOrdered) (hT : t.Tallied r) (hN : t.Named r)
    (hs : ∀ m w, t.span m w = s.span m w) (ht : ∀ m, ∀ e' ∈ q m, t.tag m e'.tag = s.tag m e'.tag) (hb : t.Backs n e) :
    t.Sound r := by
  refine ⟨hm, hT, hN, fun m e' he => ?_⟩
  have hold : e' ∈ q m → t.Backs m e' := fun he => (h.backed m e' he).congr (hs ..) (ht m e' he)
  rw [hr] at he
  by_cases hmn : m = n
  · subst hmn
    rw [Function.update_self] at he
    rcases List.mem_append.1 he with he | he
    · exact hold he
    · rwa [List.mem_singleton.1 he]
  · rw [Function.update_of_ne hmn] at he
    exact hold he

/-- A request of a free tag that is held joins its node's queue under its own grant (R83, R97). -/
theorem State.Sound.takeHold {s : State} (h : s.Sound s.hold) {n : NodeId} {u : Tag} {q : Request} {m : MapEntry}
    (hu : s.tag n u = none) (hm : s.entryAt n q.addr = some m) (hlen : q.len ≠ 0)
    (hfit : q.addr + q.len ≤ m.grant.base + m.live.bytes) (c : Cause) :
    (s.takeHold n u q (m.found (q.addr - m.grant.base)) c).Sound
      (s.takeHold n u q (m.found (q.addr - m.grant.base)) c).hold := by
  obtain ⟨hspan, -, hbase, -⟩ := span_of_entryAt h.maps hm
  generalize hf : m.found (q.addr - m.grant.base) = f
  have hshape := shape_takeHold s n u q f c
  have hspans := fun n' w => span_of_shape (hshape w) n'
  have hfree := h.named.tag_ne_of_free hu
  have hperm : (Function.update s.hold n (s.hold n ++ [s.newEntry u f c]) n).Perm
      (s.newEntry u f c :: s.hold n) := by
    rw [Function.update_self]
    exact List.perm_append_singleton ..
  rw [hold_takeHold]
  refine h.addEntry rfl (h.maps.of_shape (updateLive_maps ..) hshape) ?_ ?_ hspans (fun n' e' he => ?_) ?_
  · refine State.Tallied.raiseHeld (s := (s.setHold n _).setTag n u _) (h.tallied.congr rfl rfl rfl) ?_
    rw [entryTally_of_perm hperm, Function.update_idem, Function.update_eq_self]
    rfl
  · have hN := h.named.addEntry hperm rfl (fun m' hm' => Function.update_of_ne hm' _ _) hfree
      (h.named.record_tag_ne_of_free hu) (y := q.heldEntry f) rfl
    refine hN.congr (fun n' v => ?_) (updateLive_transactions ..) (updateLive_nextTransaction ..)
      fun _ => List.Perm.refl _
    rw [tag_takeHold, tag_setTag]
    rfl
  · rw [tag_takeHold, if_neg]
    rintro ⟨rfl, hc⟩
    exact hfree e' he hc.symm
  · subst hf
    refine ⟨m.grant.base, m.live.bytes, _, (hspans n m.window).trans hspan, (tag_takeHold ..).trans (if_pos ⟨rfl, rfl⟩),
      rfl, rfl, ?_, Nat.pos_of_ne_zero hlen, ?_⟩
    · change q.addr = m.grant.base + (q.addr - m.grant.base)
      omega
    · change q.addr - m.grant.base + q.len ≤ m.live.bytes
      omega

/-- A request that begins execution under a grant that stands keeps the law, its tag being neither held nor executing
(R84). -/
theorem beginExecution_keeps {s : State} {q : NodeId → List HoldEntry} (hT : s.Tallied q) (hN : s.Named q) {n : NodeId}
    {u : Tag} {f : Matched} (hg : (s.grant f.window n).isSome) (hfree : ∀ e ∈ q n, e.tag ≠ u)
    (hrec : ∀ z ∈ s.transactions, z.node = n → z.tag ≠ some u) (rq : Request) :
    (s.beginExecution n u rq f).Tallied q ∧ (s.beginExecution n u rq f).Named q ∧
      (∀ m v, ¬(n = m ∧ u = v) → (s.beginExecution n u rq f).tag m v = s.tag m v) ∧
      (s.beginExecution n u rq f).hold = s.hold := by
  obtain ⟨⟨v, g⟩, hvg⟩ := Option.isSome_iff_exists.1 hg
  obtain ⟨x, ⟨hid, hnode, hxtag, hwin⟩, hl⟩ := beginExecution_live (grant_eq_some_iff.1 hvg).1 n u rq
  have htag : ∀ m v, (s.beginExecution n u rq f).tag m v =
      if n = m ∧ u = v then some (rq.executingEntry f s.nextTransaction) else s.tag m v := by
    intro m v
    rw [tag_of_ledger hl, State.raiseExecuting, updateLive_tag, tag_setTag]
    rfl
  have hx : (s.beginExecution n u rq f).transactions = s.transactions ++ [x] := by
    rw [transactions_of_ledger hl]
    exact updateLive_transactions ..
  have hn : (s.beginExecution n u rq f).nextTransaction = s.nextTransaction + 1 := by
    rw [nextTransaction_of_ledger hl]
    exact updateLive_nextTransaction ..
  refine ⟨?_, ?_, fun m v hne => (htag m v).trans (if_neg hne), ?_⟩
  · have hadd := hT.addRecord (x := x) (t := State.setTag
      { s with transactions := s.transactions ++ [x], nextTransaction := s.nextTransaction + 1 } n u
        (some (rq.executingEntry f s.nextTransaction))) rfl rfl (by rw [hwin, hnode]; exact hg)
    rw [hwin, hnode] at hadd
    exact hadd.of_ledger hl
  · exact hN.addRecord hid hxtag (y := rq.executingEntry f s.nextTransaction) (by rw [hid]; rfl)
      (by rw [hnode]; exact htag) hx hn (hnode ▸ hfree) (hnode ▸ hrec)
  · rw [hold_of_ledger hl, State.raiseExecuting, updateLive_hold]
    rfl

theorem State.Sound.beginExecution {s : State} {q : NodeId → List HoldEntry} (h : s.Sound q) {n : NodeId} {u : Tag}
    {f : Matched} (hg : (s.grant f.window n).isSome) (hfree : ∀ e ∈ q n, e.tag ≠ u)
    (hrec : ∀ z ∈ s.transactions, z.node = n → z.tag ≠ some u) (rq : Request) :
    (s.beginExecution n u rq f).Sound q := by
  obtain ⟨hT, hN, htag, -⟩ := beginExecution_keeps h.tallied h.named hg hfree hrec rq
  refine ⟨h.maps.of_shape (maps_of_requests (beginExecution_requests ..)) (shape_beginExecution s n u rq f), hT, hN,
    fun m e he => (h.backed m e he).congr (span_of_shape (shape_beginExecution ..) _) (htag m e.tag ?_)⟩
  rintro ⟨rfl, hc⟩
  exact hfree e he hc.symm

theorem State.Sound.settle {s : State} (h : s.Sound s.hold) {n : NodeId} {u : Tag} {q : Request}
    (hu : s.tag n u = none) (hlen : q.len ≠ 0) : (s.settle n u q).Sound (s.settle n u q).hold := by
  unfold State.settle
  split
  · rw [hold_of_ledger (sendFault_ledger ..)]
    exact h.of_ledger (sendFault_ledger ..)
  · rename_i f c hv
    obtain ⟨m, hm, hfit, rfl⟩ := verdict_found (.inr ⟨c, hv⟩)
    unfold State.offerHold
    split
    · rw [hold_of_ledger (send_ledger ..)]
      exact h.of_ledger (send_ledger ..)
    · exact h.takeHold hu hm hlen hfit c
  · rename_i f hv
    obtain ⟨m, hm, -, rfl⟩ := verdict_found (.inl hv)
    have hg := grant_isSome_of_span (span_of_entryAt h.maps hm).1
    have hfree := h.named.tag_ne_of_free hu
    have hrec := h.named.record_tag_ne_of_free hu
    obtain ⟨-, -, -, hh⟩ := beginExecution_keeps h.tallied h.named (f := m.found _) hg hfree hrec q
    rw [hh]
    exact h.beginExecution hg hfree hrec q

/-! ### Replay -/

/-- A held entry whose request is faulted leaves the queues the law is told of (R99). -/
theorem State.Sound.faultEntry {s : State} {q : NodeId → List HoldEntry} (h : s.Sound q) {n : NodeId} {e : HoldEntry}
    {l : List HoldEntry} (hq : (q n).Perm (e :: l)) (r : FaultReason) :
    (s.faultEntry n r e).Sound (Function.update q n l) := by
  obtain ⟨hT, hN⟩ := faultEntry_keeps h.tallied h.named hq r
  refine ⟨h.maps.of_shape (maps_of_answers (faultEntry_answers ..)) (shape_faultEntry s n r e), hT, hN,
    fun m e' he => ?_⟩
  have htag : (s.faultEntry n r e).tag m e'.tag = s.tag m e'.tag ∧ e' ∈ q m := by
    rw [tag_faultEntry]
    by_cases hm : m = n
    · subst hm
      rw [Function.update_self] at he
      exact ⟨if_neg fun hc => h.named.tag_ne hq he hc.2.symm, hq.mem_iff.2 (List.mem_cons_of_mem _ he)⟩
    · rw [Function.update_of_ne hm] at he
      exact ⟨if_neg fun hc => hm hc.1.symm, he⟩
  exact (h.backed m e' htag.2).congr (span_of_shape (shape_faultEntry ..) _) htag.1

/-- A held entry whose request executes leaves the queues the law is told of (R99). -/
theorem State.Sound.executeEntry {s : State} {q : NodeId → List HoldEntry} (h : s.Sound q) {n : NodeId} {e : HoldEntry}
    {l : List HoldEntry} (hq : (q n).Perm (e :: l)) {f : Matched} (hg : (s.grant f.window n).isSome) (rq : Request) :
    ((s.lowerHeld e.window n).beginExecution n e.tag rq f).Sound (Function.update q n l) := by
  have hshape := shape_lowerHeld s e.window (n := n)
  have hother : ∀ m, ∀ e' ∈ Function.update q n l m, e' ∈ q m ∧ (m = n → e'.tag ≠ e.tag) := by
    intro m e' he
    by_cases hm : m = n
    · subst hm
      rw [Function.update_self] at he
      exact ⟨hq.mem_iff.2 (List.mem_cons_of_mem _ he), fun _ => h.named.tag_ne hq he⟩
    · rw [Function.update_of_ne hm] at he
      exact ⟨he, fun hc => absurd hc hm⟩
  have hlow : (s.lowerHeld e.window n).Sound (Function.update q n l) := by
    refine ⟨h.maps.of_shape (updateLive_maps ..) fun x => hshape x, h.tallied.lowerHeld (entryTally_of_perm hq), ?_,
      fun m e' he => (h.backed m e' (hother m e' he).1).congr (span_of_shape (hshape _) _) (updateLive_tag ..)⟩
    have hN := h.named.dropEntry hq (s.tag n e.tag)
    rw [setTag_self s rfl] at hN
    exact hN.congr (updateLive_tag s _ _) (updateLive_transactions ..) (updateLive_nextTransaction ..)
      fun _ => List.Perm.refl _
  refine hlow.beginExecution ?_ (fun e' he => (hother n e' he).2 rfl) (fun z hz hn => ?_) rq
  · rw [grant_isSome_of_shape (hshape _)]
    exact hg
  · rw [State.lowerHeld, updateLive_transactions] at hz
    exact h.named.record_tag_ne (hq.mem_iff.2 (List.mem_cons_self ..)) hz hn

/-- An entry held again keeps its place under the law; its tag takes what the lookup recorded (R99, log 32). -/
theorem State.Sound.holdAgain {s : State} {q : NodeId → List HoldEntry} (h : s.Sound q) {n : NodeId}
    {e e' : HoldEntry} {l l' : List HoldEntry} (hq : (q n).Perm (e :: l)) (hl : l'.Perm (e' :: l))
    (htag : e'.tag = e.tag) (hw : e'.window = e.window) {y : TagEntry} (hy : y.phase = .held)
    (hb : (s.setTag n e.tag (some y)).Backs n e') : (s.setTag n e.tag (some y)).Sound (Function.update q n l') := by
  have hl' : (Function.update q n l' n).Perm (e' :: l) := by rwa [Function.update_self]
  have hdrop := h.named.dropEntry hq (some y)
  refine ⟨h.maps.of_shape rfl fun _ => rfl, h.tallied.congr rfl rfl ?_, ?_, fun m x hx => ?_⟩
  · rw [entryTally_of_perm hq, entryTally_of_perm hl', Function.update_idem, hw]
  · have hadd := hdrop.addEntry (r := Function.update q n l') (e := e') hl' (by simp)
      (fun m hm => by simp [hm]) (fun x hx => ?_) (fun x hx hn => ?_) hy
    · rwa [htag, setTag_self _ (by simp)] at hadd
    · rw [Function.update_self] at hx
      rw [htag]
      exact h.named.tag_ne hq hx
    · rw [htag]
      exact h.named.record_tag_ne (hq.mem_iff.2 (List.mem_cons_self ..)) hx hn
  · by_cases hm : m = n
    · subst hm
      rcases List.mem_cons.1 (hl'.mem_iff.1 hx) with rfl | hx
      · exact hb
      · refine (h.backed m x (hq.mem_iff.2 (List.mem_cons_of_mem _ hx))).congr rfl ?_
        rw [tag_setTag, if_neg fun hc => h.named.tag_ne hq hx hc.2.symm]
    · rw [Function.update_of_ne hm] at hx
      refine (h.backed m x hx).congr rfl ?_
      rw [tag_setTag, if_neg fun hc => hm hc.1.symm]

/-- The lookup of a held request finds the entry's own grant again, so the entry stays backed by what it records (R99
step 1). -/
theorem verdict_of_backs {s : State} (h : s.MapsOrdered) {n : NodeId} {e : HoldEntry} (hb : s.Backs n e) {x : TagEntry}
    (hx : s.tag n e.tag = some x) {kept : List HoldEntry} {f : Matched}
    (hv : s.verdict n x.kind x.addr x.len kept = .execute f ∨ ∃ c, s.verdict n x.kind x.addr x.len kept = .hold f c) :
    (s.grant f.window n).isSome ∧ (s.setTag n e.tag (some { x with toMatched := f })).Backs n e := by
  obtain ⟨b, k, x', hspan, hx', hw, hc, ha, hl, ho⟩ := hb
  obtain rfl : x' = x := Option.some.inj (hx'.symm.trans hx)
  obtain ⟨m, hm, hmw, hmb, -⟩ := entryAt_of_span h hspan (addr := x'.addr) (by omega) (by omega)
  obtain ⟨m', hm', -, rfl⟩ := verdict_found hv
  obtain rfl : m = m' := Option.some.inj (hm.symm.trans hm')
  have hoff : x'.addr - m.grant.base = x'.offset := by omega
  rw [hoff]
  refine ⟨grant_isSome_of_span (span_of_entryAt h hm).1, b, k, { x' with toMatched := m.found x'.offset }, hspan, ?_,
    hmw, hc, ha, hl, ho⟩
  rw [tag_setTag, if_pos ⟨rfl, rfl⟩]

/-- The replay of a queue keeps the law, told of the entries held again and of those still to be evaluated (R99). -/
theorem State.Sound.replayEntries (n : NodeId) (rest kept : List HoldEntry) {s : State} {q : NodeId → List HoldEntry}
    (h : s.Sound q) (hq : q n = kept ++ rest) (ho : ∀ m, m ≠ n → q m = s.hold m) :
    (replayEntries n kept rest s).state.Sound (replayEntries n kept rest s).state.hold := by
  induction rest generalizing kept s q with
  | nil =>
    have hh : (s.setHold n kept).hold = q := by
      rw [hold_setHold_eq]
      funext m
      by_cases hm : m = n
      · subst hm
        simp [hq]
      · simp [hm, ho m hm]
    simp only [Machine.replayEntries, hh]
    exact h.setHold n kept
  | cons e rest ih =>
    have hp : (q n).Perm (e :: (kept ++ rest)) := hq ▸ List.perm_middle
    have he : e ∈ q n := hp.mem_iff.2 (List.mem_cons_self ..)
    have hother : ∀ {l : List HoldEntry} {t : State}, t.hold = s.hold →
        ∀ m, m ≠ n → Function.update q n l m = t.hold m := by
      intro l t ht m hm
      rw [Function.update_of_ne hm, ht, ho m hm]
    obtain ⟨x, hx, hphase⟩ := h.named.heldTag n e he
    simp only [Machine.replayEntries, hx]
    split
    · rename_i f c hv
      obtain ⟨-, hb⟩ := verdict_of_backs h.maps (h.backed n e he) hx (.inr ⟨c, hv⟩)
      have hs := h.holdAgain (e' := { e with cause := c }) (l' := kept ++ { e with cause := c } :: rest) hp
        List.perm_middle rfl rfl (y := { x with toMatched := f }) hphase hb
      exact ih _ hs (by simp) (hother rfl)
    · rename_i r hv
      refine ih _ (h.faultEntry hp r) (by simp) (hother ?_)
      rw [hold_of_ledger (faultTag_ledger ..)]
      exact updateLive_hold ..
    · rename_i f hv
      obtain ⟨hg, -⟩ := verdict_of_backs h.maps (h.backed n e he) hx (.inl hv)
      refine ih _ (h.executeEntry hp hg _) (by simp) (hother ?_)
      obtain ⟨⟨v, g⟩, hvg⟩ := Option.isSome_iff_exists.1 hg
      have hlive : ((s.lowerHeld e.window n).grant f.window n).isSome :=
        (grant_isSome_of_shape (shape_lowerHeld ..) n).trans hg
      obtain ⟨⟨v, g⟩, hvg⟩ := Option.isSome_iff_exists.1 hlive
      obtain ⟨y, -, hl⟩ := beginExecution_live (grant_eq_some_iff.1 hvg).1 n e.tag
        ⟨x.kind, x.addr, x.len, x.data.getD []⟩
      rw [hold_of_ledger hl, State.raiseExecuting, updateLive_hold]
      exact updateLive_hold ..

theorem State.Sound.replay {s : State} (h : s.Sound s.hold) (n : NodeId) :
    (s.replay n).state.Sound (s.replay n).state.hold :=
  h.replayEntries n (s.hold n) [] rfl fun _ _ => rfl

end Sys2Proof.Machine
end

section
/-! SUPPORT. The law of R9 through the ends of records, the loss of a node, and the lives of grants and windows; every
step keeps it. -/

namespace Sys2Proof.Machine

/-! ### Records -/

/-- A record with a name of its own stands in the records once. -/
theorem perm_filter_id {xs : List Transaction} (h : (xs.map fun x => x.id).Nodup) {t : Transaction} (ht : t ∈ xs) :
    xs.Perm (t :: xs.filter fun x => x.id != t.id) := by
  induction xs with
  | nil => simp at ht
  | cons x xs ih =>
    rw [List.map_cons, List.nodup_cons] at h
    rcases List.mem_cons.1 ht with rfl | ht
    · have hne : ∀ y ∈ xs, (y.id != t.id) = true := by
        intro y hy
        simpa using fun hc => h.1 (List.mem_map.2 ⟨y, hy, hc⟩)
      rw [List.filter_cons, if_neg (by simp), List.filter_eq_self.2 hne]
    · have hne : x.id ≠ t.id := fun hc => h.1 (hc ▸ List.mem_map_of_mem ht)
      rw [List.filter_cons, if_pos (by simpa using hne)]
      exact ((ih h.2 ht).cons x).trans (List.Perm.swap ..)

theorem eq_of_id {xs : List Transaction} (h : (xs.map fun x => x.id).Nodup) {x t : Transaction} (hx : x ∈ xs)
    (ht : t ∈ xs) (hid : x.id = t.id) : x = t :=
  List.inj_on_of_nodup_map h hx ht hid

theorem tag_answerTag (s : State) (t : Transaction) (n : NodeId) (u : Tag) :
    (s.answerTag t).tag n u = if t.node = n ∧ t.tag = some u then none else s.tag n u := by
  rw [tag_of_ledger (answerTag_ledger s t)]
  cases t.tag with
  | none => simp
  | some tag => simp

/-- The answer to an ended transaction leaves the windows, the hold queues and the records as they were. -/
theorem answerTag_frame (s : State) (t : Transaction) :
    (s.answerTag t).accounts = s.accounts ∧ (s.answerTag t).hold = s.hold ∧
      (s.answerTag t).transactions = s.transactions ∧ (s.answerTag t).nextTransaction = s.nextTransaction := by
  have hl := answerTag_ledger s t
  refine ⟨accounts_of_windows (windows_answerTag s t), (hold_of_ledger hl).trans ?_,
    (transactions_of_ledger hl).trans ?_, (nextTransaction_of_ledger hl).trans ?_⟩ <;> cases t.tag <;> rfl

/-- A transaction's end takes its record and its tag away, and the counts follow (R87, R88). -/
theorem State.Sound.closeRecord {s : State} (h : s.Sound s.hold) {t : Transaction} (ht : t ∈ s.transactions) :
    (s.closeRecord t).Sound (s.closeRecord t).hold := by
  obtain ⟨hacc, hhold, hxs, hnext⟩ := answerTag_frame s t
  have hdrop : ((s.answerTag t).dropRecord t).transactions = s.transactions.filter fun u => u.id != t.id := by
    rw [State.dropRecord, hxs]
  have htag : ∀ n u, (s.closeRecord t).tag n u = if t.node = n ∧ t.tag = some u then none else s.tag n u := by
    intro n u
    rw [State.closeRecord, State.lowerExecuting, updateLive_tag]
    exact tag_answerTag s t n u
  have hheld : ∀ n, ∀ e ∈ s.hold n, (s.closeRecord t).tag n e.tag = s.tag n e.tag := by
    intro n e he
    rw [htag, if_neg]
    rintro ⟨hn, hc⟩
    exact h.named.record_tag_ne he ht hn hc
  have hrecords : (s.closeRecord t).transactions = s.transactions.filter fun u => u.id != t.id := by
    rw [State.closeRecord, State.lowerExecuting, updateLive_transactions, hdrop]
  have hcount : (s.closeRecord t).nextTransaction = s.nextTransaction := by
    rw [State.closeRecord, State.lowerExecuting, updateLive_nextTransaction]
    exact hnext
  have hh : (s.closeRecord t).hold = s.hold := by
    rw [State.closeRecord, State.lowerExecuting, updateLive_hold]
    exact hhold
  rw [hh]
  refine ⟨enduring_mapsOrdered.closed h.maps ht, ?_, ?_, fun n e he => ?_⟩
  · exact h.tallied.dropRecord (t := (s.answerTag t).dropRecord t) hacc (hdrop ▸ perm_filter_id h.named.idsOnce ht)
  · refine ⟨h.named.heldOnce, fun n e he => hheld n e he ▸ h.named.heldTag n e he, ?_, ?_, fun x hx u hu => ?_⟩
    · rw [hrecords]
      exact h.named.idsOnce.sublist (List.filter_sublist.map _)
    · rw [hrecords, hcount]
      exact fun x hx => h.named.idsPast x (List.mem_of_mem_filter hx)
    · rw [hrecords, List.mem_filter, bne_iff_ne] at hx
      obtain ⟨y, hy, hp⟩ := h.named.recordTag x hx.1 u hu
      rw [htag, if_neg]
      · exact ⟨y, hy, hp⟩
      · rintro ⟨hn, hc⟩
        obtain ⟨z, hz, hpz⟩ := h.named.recordTag t ht u hc
        rw [hn, hy] at hz
        obtain rfl := Option.some.inj hz
        exact hx.2 (Phase.executing.inj (hp.symm.trans hpz))
  · exact (h.backed n e he).congr (span_of_shape (closeRecord_frame s t _).1 n) (hheld n e he)

/-- Records may change in what the law does not read. -/
theorem State.Sound.mapRecords {s : State} {q : NodeId → List HoldEntry} (h : s.Sound q)
    {f : Transaction → Transaction}
    (hf : ∀ x ∈ s.transactions,
      (f x).id = x.id ∧ (f x).node = x.node ∧ (f x).window = x.window ∧ ∀ u, (f x).tag = some u → x.tag = some u) :
    { s with transactions := s.transactions.map f }.Sound q := by
  have hids : (s.transactions.map f).map (fun x => x.id) = s.transactions.map fun x => x.id := by
    rw [List.map_map]
    exact List.map_congr_left fun x hx => (hf x hx).1
  refine ⟨h.maps.of_shape rfl fun _ => rfl, ⟨?_, h.tallied.held.of_accounts rfl, ?_⟩,
    ⟨h.named.heldOnce, h.named.heldTag, hids ▸ h.named.idsOnce, ?_, ?_⟩, fun n e he => (h.backed n e he).congr rfl rfl⟩
  · change State.CountIs _ _ (recordTally (s.transactions.map f))
    rw [recordTally_map fun x hx => ⟨(hf x hx).2.2.1, (hf x hx).2.1⟩]
    exact h.tallied.executing.of_accounts rfl
  all_goals
    intro y hy
    obtain ⟨x, hx, rfl⟩ := List.mem_map.1 hy
    obtain ⟨hid, hnode, hwin, htag⟩ := hf x hx
  · rw [hwin, hnode]
    exact h.tallied.records x hx
  · rw [hid]
    exact h.named.idsPast x hx
  · rw [hnode, hid]
    exact fun u hu => h.named.recordTag x hx u (htag u hu)

theorem State.Sound.noteOp {s : State} (h : s.Sound s.hold) {t : Transaction} (ht : t ∈ s.transactions) (role : Role)
    (failed : Bool) (bytes : List Byte) :
    (s.noteOp t role failed bytes).Sound (s.noteOp t role failed bytes).hold := by
  refine h.mapRecords fun x hx => ?_
  split
  · rename_i hid
    obtain rfl := eq_of_id h.named.idsOnce hx ht hid
    exact ⟨rfl, rfl, rfl, fun _ hu => hu⟩
  · exact ⟨rfl, rfl, rfl, fun _ hu => hu⟩

/-! ### The loss of a node -/

/-- The abandoned tags of a node are free; its records have none any more (R89). -/
theorem abandonTags_named {s : State} {q : NodeId → List HoldEntry} (h : s.Named q) (n : NodeId) :
    (s.abandonTags n).Named (Function.update q n []) where
  heldOnce m := by
    by_cases hm : m = n
    · simp [hm]
    · rw [Function.update_of_ne hm]
      exact h.heldOnce m
  heldTag m e he := by
    by_cases hm : m = n
    · simp [hm] at he
    · rw [Function.update_of_ne hm] at he
      rw [State.tag, State.abandonTags, Table.get_put_of_ne _ _ (Ne.symm hm)]
      exact h.heldTag m e he
  idsOnce := by
    have : (s.abandonTags n).transactions.map (fun x => x.id) = s.transactions.map fun x => x.id := by
      rw [State.abandonTags, List.map_map]
      refine List.map_congr_left fun x _ => ?_
      simp only [Function.comp, Transaction.orphanOf]
      split <;> rfl
    rw [this]
    exact h.idsOnce
  idsPast y hy := by
    obtain ⟨x, hx, rfl⟩ := List.mem_map.1 hy
    have hid : (x.orphanOf n).id = x.id := by
      unfold Transaction.orphanOf
      split <;> rfl
    rw [hid]
    exact h.idsPast x hx
  recordTag y hy u hu := by
    obtain ⟨x, hx, rfl⟩ := List.mem_map.1 hy
    unfold Transaction.orphanOf at hu ⊢
    split at hu
    · simp at hu
    · rename_i hn
      rw [if_neg hn, State.tag, State.abandonTags, Table.get_put_of_ne _ _ (Ne.symm hn)]
      exact h.recordTag x hx u hu

theorem abandonTags_tallied {s : State} {q : NodeId → List HoldEntry} (h : s.Tallied q) (n : NodeId) :
    (s.abandonTags n).Tallied q := by
  have hf : ∀ x : Transaction, (x.orphanOf n).window = x.window ∧ (x.orphanOf n).node = x.node := by
    intro x
    unfold Transaction.orphanOf
    split <;> exact ⟨rfl, rfl⟩
  refine ⟨?_, h.held.of_accounts rfl, fun y hy => ?_⟩
  · rw [State.abandonTags, recordTally_map fun x _ => hf x]
    exact h.executing.of_accounts rfl
  · obtain ⟨x, hx, rfl⟩ := List.mem_map.1 hy
    rw [(hf x).1, (hf x).2]
    exact h.records x hx

/-- Entries that leave a queue without completions are counted no more (R107). -/
theorem foldl_lowerHeld_keeps (n : NodeId) (l : List HoldEntry) {s : State} {q : NodeId → List HoldEntry}
    (hT : s.Tallied q) (hq : q n = l) :
    (l.foldl (fun s e => s.lowerHeld e.window n) s).Tallied (Function.update q n []) ∧
      (l.foldl (fun s e => s.lowerHeld e.window n) s).tags = s.tags ∧
      (l.foldl (fun s e => s.lowerHeld e.window n) s).holds = s.holds ∧
      (l.foldl (fun s e => s.lowerHeld e.window n) s).transactions = s.transactions ∧
      (l.foldl (fun s e => s.lowerHeld e.window n) s).nextTransaction = s.nextTransaction := by
  induction l generalizing s q with
  | nil =>
    have hself : Function.update q n [] = q := hq ▸ Function.update_eq_self ..
    exact ⟨hself.symm ▸ hT, rfl, rfl, rfl, rfl⟩
  | cons e l ih =>
    have hT' : (s.lowerHeld e.window n).Tallied (Function.update q n l) :=
      hT.lowerHeld (entryTally_of_perm (hq ▸ List.Perm.refl _))
    obtain ⟨h1, h2, h3, h4, h5⟩ := ih hT' (by simp)
    rw [Function.update_idem] at h1
    exact ⟨h1, h2.trans (updateLive_tags ..), h3.trans (updateLive_holds ..), h4.trans (updateLive_transactions ..),
      h5.trans (updateLive_nextTransaction ..)⟩

/-- A node that is lost gives up its tags and its held requests, and the counts follow (R89, R107). -/
theorem State.Sound.dropTags {s : State} (h : s.Sound s.hold) (n : NodeId) :
    ((s.abandonTags n).dropHolds n).Sound ((s.abandonTags n).dropHolds n).hold := by
  have hT : ((s.abandonTags n).setHold n []).Tallied s.hold := (abandonTags_tallied h.tallied n).congr rfl rfl rfl
  obtain ⟨h1, h2, h3, h4, h5⟩ := foldl_lowerHeld_keeps n ((s.abandonTags n).hold n) hT rfl
  change State.Tallied ((s.abandonTags n).dropHolds n) _ at h1
  have hh : ((s.abandonTags n).dropHolds n).hold = Function.update s.hold n [] :=
    (funext fun m => congrArg (Table.get · m) h3).trans (hold_setHold_eq (s.abandonTags n) n [])
  have htag : ∀ m u, ((s.abandonTags n).dropHolds n).tag m u = (s.abandonTags n).tag m u :=
    fun m u => congrArg (fun t => Table.get (Table.get t m) u) h2
  rw [hh]
  refine ⟨enduring_mapsOrdered.dropTags n h.maps, h1,
    (abandonTags_named h.named n).congr htag h4 h5 fun _ => List.Perm.refl _, fun m e he => ?_⟩
  by_cases hm : m = n
  · simp [hm] at he
  · rw [Function.update_of_ne hm] at he
    refine (h.backed m e he).congr (span_of_shape (dropHolds_frame (s.abandonTags n) n _).1 m) ?_
    rw [htag, State.tag, State.abandonTags, Table.get_put_of_ne _ _ (Ne.symm hm)]
    rfl

/-! ### Grants -/

/-- Windows may change where counts, the standing of grants and, for entries held, spans stay. -/
theorem State.Sound.of_windows {s t : State} (h : s.Sound s.hold) (hm : t.MapsOrdered)
    (hx : t.transactions = s.transactions) (hn : t.nextTransaction = s.nextTransaction) (hg : t.tags = s.tags)
    (hh : t.holds = s.holds) (hc : ∀ b k, s.CountIs b k → (∀ n w, s.grant w n = none → k w n = 0) → t.CountIs b k)
    (hr : ∀ x ∈ s.transactions, (t.grant x.window x.node).isSome)
    (hs : ∀ n w a, s.span n w = some a → t.span n w = s.span n w) : t.Sound t.hold := by
  have hhold : t.hold = s.hold := funext fun n => congrArg (Table.get · n) hh
  have htag : ∀ n u, t.tag n u = s.tag n u := fun n u => congrArg (fun t => Table.get (Table.get t n) u) hg
  rw [hhold]
  refine ⟨hm, ⟨?_, ?_, hx ▸ hr⟩, h.named.congr htag hx hn fun _ => List.Perm.refl _, fun n e he => ?_⟩
  · rw [hx]
    refine hc _ _ h.tallied.executing fun n w hno => recordTally_eq_zero ?_
    rintro x hxs rfl rfl
    have := h.tallied.records x hxs
    simp [hno] at this
  · refine hc _ _ h.tallied.held fun n w hno => entryTally_eq_zero ?_
    rintro e he rfl
    obtain ⟨b, k, x, hspan, -⟩ := h.backed n e he
    have := grant_isSome_of_span hspan
    simp [hno] at this
  · have hb := h.backed n e he
    obtain ⟨b, k, x, hspan, -⟩ := id hb
    exact hb.congr (hs n _ _ hspan) (htag ..)

/-- A DRAINING grant with no record is removed: nothing is counted under it (R122). -/
theorem State.Sound.removed {s : State} (h : s.Sound s.hold) {w : WindowId} {n : NodeId} {v : Live} {g : GrantRecord}
    (hg : s.grant w n = some (v, g)) (hd : g.state = .draining) (he : g.executing = 0) :
    (s.updateLive w fun v => { v with grants := v.grants.filter fun g => g.node != n }).Sound
      (s.updateLive w fun v => { v with grants := v.grants.filter fun g => g.node != n }).hold := by
  obtain ⟨hv, hgn⟩ := grant_eq_some_iff.1 hg
  refine h.of_windows (h.maps.removed hg hd) (updateLive_transactions ..) (updateLive_nextTransaction ..)
    (updateLive_tags ..) (updateLive_holds ..) (fun b k hc _ => ?_) (fun x hx => ?_)
    fun m x _ _ => span_removed hg hd m x
  · refine hc.updateLive (fun u _ hu => ⟨?_, fun m k hk => ?_⟩) fun _ _ => rfl
    · cases b <;> exact hu.1
    · rw [grant_filter_ne] at hk
      split at hk
      · simp at hk
      · exact hu.2 m k hk
  · have hrec := h.tallied.records x hx
    obtain ⟨⟨u, k⟩, huk⟩ := Option.isSome_iff_exists.1 hrec
    obtain ⟨hu, hk⟩ := grant_eq_some_iff.1 huk
    by_cases hxw : w = x.window
    · have hne : x.node ≠ n := by
        rintro rfl
        have hz : recordTally s.transactions w x.node = 0 := ((h.tallied.executing w v hv).2 _ g hgn).symm.trans he
        have := List.countP_eq_zero.1 hz x hx
        simp [hxw] at this
      have hl : ((s.updateLive w fun v => { v with grants := v.grants.filter fun g => g.node != n }).window
          x.window).life = some { u with grants := u.grants.filter fun g => g.node != n } := by
        rw [life_updateLive, if_pos hxw, hu]
        rfl
      rw [grant_of_life hl, grant_filter_ne, if_neg hne, hk]
      rfl
    · have hl : ((s.updateLive w fun v => { v with grants := v.grants.filter fun g => g.node != n }).window
          x.window).life = some u := by
        rw [life_updateLive, if_neg hxw, hu]
      rw [grant_of_life hl, hk]
      rfl

/-- The counts of a grant that turns DRAINING stay (R116). -/
theorem countIs_delist {s : State} {b : Book} {k : WindowId → NodeId → Nat} (h : s.CountIs b k) (w : WindowId)
    (n : NodeId) : (s.delist w n).CountIs b k := by
  have h' : (s.setMap n ((s.map n).filter fun x => x != w)).CountIs b k := h.of_accounts rfl
  refine h'.updateLive (fun v _ hc => ⟨?_, fun m g hg => ?_⟩) fun _ _ => rfl
  · rw [ofWindow_updateGrant]
    exact hc.1
  · rw [grant_updateGrant v n m (fun g => { g with state := .draining }) fun _ => rfl] at hg
    split at hg
    · obtain ⟨g', hg', rfl⟩ := Option.map_eq_some_iff.1 hg
      exact (by cases b <;> rfl : b.ofGrant { g' with state := .draining } = b.ofGrant g').trans (hc.2 m g' hg')
    · exact hc.2 m g hg

theorem grant_isSome_delist (s : State) (w x : WindowId) (n m : NodeId) :
    ((s.delist w n).grant x m).isSome = (s.grant x m).isSome := by
  have hl : ((s.delist w n).window x).life =
      if w = x then (s.window x).life.map fun v => v.updateGrant n fun g => { g with state := .draining }
      else (s.window x).life := life_updateLive ..
  cases hv : (s.window x).life with
  | none =>
    rw [hv] at hl
    rw [grant_of_free hv, grant_of_free (by rw [hl]; split <;> rfl)]
  | some v =>
    rw [hv] at hl
    split at hl
    · rw [grant_of_life hl, grant_of_life hv, grant_updateGrant v n m (fun g => { g with state := .draining }) fun _ => rfl]
      split <;> simp
    · rw [grant_of_life hl, grant_of_life hv]

/-- An unlisting faults the entries held under the grant, so every entry left is held under a listed grant (R116,
R106). -/
theorem State.Sound.delisted {s : State} (h : s.Sound s.hold) (w : WindowId) (n : NodeId) :
    ((s.delist w n).faultHeld n (fun e => e.window == w) .revoked).Sound
      ((s.delist w n).faultHeld n (fun e => e.window == w) .revoked).hold := by
  have hx : (s.delist w n).transactions = s.transactions := updateLive_transactions ..
  have hhold : (s.delist w n).hold = s.hold := updateLive_hold ..
  have htag : ∀ m u, (s.delist w n).tag m u = s.tag m u := fun m u => updateLive_tag ..
  have hT : (s.delist w n).Tallied (s.delist w n).hold := by
    rw [hhold]
    refine ⟨hx ▸ countIs_delist h.tallied.executing w n, countIs_delist h.tallied.held w n, fun x hxs => ?_⟩
    rw [grant_isSome_delist]
    exact h.tallied.records x (hx ▸ hxs)
  have hN : (s.delist w n).Named (s.delist w n).hold := by
    rw [hhold]
    exact h.named.congr htag hx (updateLive_nextTransaction ..) fun _ => List.Perm.refl _
  obtain ⟨hh, hT', hN', hB⟩ := faultHeld_keeps hT hN n (fun e => e.window == w) .revoked
  refine ⟨enduring_mapsOrdered.delisted w n h.maps, hT', hN', fun m e he => hB m e he ?_⟩
  rw [hh, hhold] at he
  have hkept : e ∈ s.hold m ∧ ¬(m = n ∧ w = e.window) := by
    by_cases hm : m = n
    · subst hm
      rw [Function.update_self, List.mem_filter] at he
      exact ⟨he.1, fun hc => by simp [hc.2] at he⟩
    · rw [Function.update_of_ne hm] at he
      exact ⟨he, fun hc => hm hc.1⟩
  exact (h.backed m e hkept.1).congr ((span_delist ..).trans (if_neg hkept.2)) (htag ..)

/-! ### Windows and new grants -/

theorem grant_setWindow_of_ne (s : State) {w x : WindowId} (hx : w ≠ x) (r : WindowRecord) (n : NodeId) :
    (s.setWindow w r).grant x n = s.grant x n := by
  rw [State.grant, window_setWindow, if_neg hx]
  rfl

/-- A window without grants leaves use or comes into use: nothing is counted under it (R126, R17). -/
theorem State.Sound.setWindow_bare {s : State} (h : s.Sound s.hold) {w : WindowId} {r : WindowRecord}
    (hg : ∀ n, s.grant w n = none) (hr : ∀ v, r.life = some v → ∃ home, v = Live.fresh home) :
    (s.setWindow w r).Sound (s.setWindow w r).hold := by
  have hspan : ∀ n, s.span n w = none := by
    intro n
    cases hs : s.span n w with
    | none => rfl
    | some a =>
      have := grant_isSome_of_span (b := a.1) (k := a.2) hs
      simp [hg] at this
  have hbare : ∀ v, r.life = some v → v.grants = [] := fun v hv => by
    obtain ⟨home, rfl⟩ := hr v hv
    rfl
  refine h.of_windows (h.maps.setWindow_bare hspan hbare) rfl rfl rfl rfl (fun b k hc hz => ?_)
    (fun x hx => ?_) fun n x a ha => ?_
  · refine hc.setWindow fun v hv => ?_
    obtain ⟨home, rfl⟩ := hr v hv
    refine ⟨?_, fun n g hgn => by simp [Live.grant, Live.fresh] at hgn⟩
    have hsum : (allNodes.map (k w)).sum = 0 := by simp [allNodes, hz _ w (hg _)]
    rw [hsum]
    cases b <;> rfl
  · have hrec := h.tallied.records x hx
    rwa [grant_setWindow_of_ne]
    rintro rfl
    simp [hg] at hrec
  · rw [span_setWindow, if_neg]
    rintro rfl
    simp [hspan] at ha

/-- A new grant counts nothing: no record and no entry stands under a grant that is not there (R46). -/
theorem State.Sound.addGrant {s : State} (h : s.Sound s.hold) {w : WindowId} {v : Live} {n : NodeId} {base : Nat}
    (hg : s.Grantable w v n base) (r : Rights) : (s.addGrant w n base r).Sound (s.addGrant w n base r).hold := by
  have hno : s.grant w n = none := by rw [grant_of_life hg.live, hg.none]; rfl
  have hgrant : ∀ m, ({ v with grants := insertGrant (GrantRecord.fresh n base r) v.grants } : Live).grant m =
      if m = n then some (GrantRecord.fresh n base r) else v.grant m := grant_insertGrant hg.none
  refine h.of_windows (h.maps.addGrant hg r) (updateLive_transactions ..) (updateLive_nextTransaction ..)
    (updateLive_tags ..) (updateLive_holds ..) (fun b k hc hz => ?_) (fun x hx => ?_) fun m x a ha => ?_
  · have hc' : (s.setMap n (insertRef (s.baseOf n) w base (s.map n))).CountIs b k := hc.of_accounts rfl
    refine hc'.updateLive (fun u hu hk => ⟨?_, fun m g hm => ?_⟩) fun _ _ => rfl
    · cases b <;> exact hk.1
    · obtain rfl : u = v := Option.some.inj (hu.symm.trans hg.live)
      rw [← GrantRecord.fresh, hgrant m] at hm
      split at hm
      · rename_i hmn
        subst hmn
        obtain rfl := Option.some.inj hm
        rw [hz m w hno]
        cases b <;> rfl
      · exact hk.2 m g hm
  · obtain ⟨⟨u, k⟩, huk⟩ := Option.isSome_iff_exists.1 (h.tallied.records x hx)
    obtain ⟨hu, hk⟩ := grant_eq_some_iff.1 huk
    have hl := life_addGrant s w x.window n base r
    split at hl
    · rename_i hw
      obtain rfl : u = v := Option.some.inj (hu.symm.trans (hw ▸ hg.live))
      rw [hu, Option.map_some] at hl
      rw [grant_of_life hl, hgrant, hk]
      split <;> rfl
    · rw [grant_of_life (hl.trans hu), hk]
      rfl
  · rw [span_addGrant hg.live hg.none, if_neg]
    rintro ⟨rfl, rfl⟩
    have := grant_isSome_of_span (b := a.1) (k := a.2) ha
    simp [hno] at this

/-! ### The invariant -/

theorem sound_reset : State.reset.Sound State.reset.hold := by
  have hlife : ∀ w, (State.reset.window w).life = none := by simp [State.reset, State.window, WindowRecord.reset]
  have hhold : ∀ n, State.reset.hold n = [] := by simp [State.reset, State.hold]
  refine ⟨enduring_mapsOrdered.reset, ⟨?_, ?_, ?_⟩, ⟨?_, ?_, ?_, ?_, ?_⟩, ?_⟩
  · exact fun w v hv => by simp [hlife] at hv
  · exact fun w v hv => by simp [hlife] at hv
  · exact fun x hx => by simp [State.reset] at hx
  · simp [hhold]
  · simp [hhold]
  · simp [State.reset]
  · simp [State.reset]
  · simp [State.reset]
  · simp [hhold]

/-- Every change of the ledger keeps the law of R9. -/
theorem enduring_sound : Enduring fun s => s.Sound s.hold where
  maps h := h.maps
  ledger h hl := (hold_of_ledger hl).symm ▸ h.of_ledger hl
  reset := sound_reset
  settle h hu hlen := h.settle hu hlen
  faultHeld n hit r h := h.faultHeld n hit r
  replay n h := h.replay n
  dropTags n h := h.dropTags n
  delisted w n h := h.delisted w n
  removed h hg hd he := h.removed hg hd he
  freed generation h hv hg :=
    h.setWindow_bare (fun n => by simp [grant_of_life hv, Live.grant, hg]) fun _ hr => by simp at hr
  made generation home h hfree :=
    h.setWindow_bare (grant_of_free hfree) fun _ hr => ⟨home, (Option.some.inj hr).symm⟩
  granted r h hg := h.addGrant hg r
  noted role failed bytes h ht := h.noteOp ht role failed bytes
  closed h ht := h.closeRecord ht

/-- Settles O59: the law of R9, with the names of records and held tags, is kept change by change. -/
theorem stepKeepsCountsAgree : Obligations.StepKeepsCountsAgree :=
  fun _ _ ho hg hm hc ht => (enduring_sound.step (hc.sound hg hm) ho ht).countsAgree

end Sys2Proof.Machine
end

section
/-! SUPPORT. The window directory: reset, the window check, CREATE WINDOW and the queries (chapters 1 and 2). -/

namespace Sys2Proof.Machine

/-! ### Device reset -/

section Reset

@[simp] theorem window_reset (w : WindowId) : State.reset.window w = { generation := 0, life := none } :=
  Table.get_fill ..

@[simp] theorem map_reset (n : NodeId) : State.reset.map n = [] := Table.get_fill ..

@[simp] theorem hold_reset (n : NodeId) : State.reset.hold n = [] := Table.get_fill ..

@[simp] theorem capture_reset (n : NodeId) : State.reset.capture n = none := Table.get_fill ..

@[simp] theorem port_reset (n : NodeId) : State.reset.port n = Port.reset := Table.get_fill ..

@[simp] theorem tag_reset (n : NodeId) (t : Tag) : State.reset.tag n t = none :=
  (congrArg (Table.get · t) (Table.get_fill ..)).trans (Table.get_fill ..)

@[simp] theorem slot_reset (j : SlotId) : State.reset.slot j = .idle := Table.get_fill ..

@[simp] theorem channel_reset (c : ChannelId) : State.reset.channel c = [] := Table.get_fill ..

@[simp] theorem reasons_reset (i : Fin 73) : State.reset.reasons i = 0 := Table.get_fill ..

theorem pendingSources_reset : State.reset.pendingSources = [] := by
  simp [State.pendingSources]

/-- After device reset BUSY and BOOTING are set and nothing else (R150, R153, section 11.1). -/
theorem status_reset : State.reset.status = 0x00000011#32 := by
  rw [State.status, State.attn, pendingSources_reset]
  rfl

theorem summary_reset : State.reset.summary = 0 := by
  simp only [State.summary, State.classPending, pendingSources_reset]
  rfl

/-- After device reset every slot between STATUS and the version reads 0 (R150). -/
theorem readSlot_reset (k : Fin 16) (h1 : 1 ≤ k.val) (h2 : k.val ≤ 11) : State.reset.readSlot k = 0 := by
  match k with
  | 0 => simp at h1
  | 1 | 2 | 3 | 4 | 5 | 6 | 7 | 8 | 9 | 10 => rfl
  | 11 => exact summary_reset
  | 12 | 13 | 14 | 15 => simp at h2

/-- Settles O4: every record of the reset state reads as its table's value. -/
theorem resetValues : Obligations.ResetValues :=
  ⟨window_reset,
    fun n => ⟨map_reset n, hold_reset n, capture_reset n, congrArg Port.link (port_reset n),
      congrArg Port.identity (port_reset n), congrArg Port.standing (port_reset n), congrArg Port.counter (port_reset n),
      congrArg Port.outbound (port_reset n)⟩,
    tag_reset, rfl, slot_reset, rfl, reasons_reset, channel_reset, rfl, rfl, rfl, rfl, rfl, rfl, rfl, rfl, rfl, rfl,
    status_reset, readSlot_reset, rfl, rfl⟩

end Reset

/-! ### The window check -/

/-- The allowed states of R7's table are the states whose codes it lists. -/
theorem takenIn_iff {c : Cmd} {allowed : List Nat} (h : (c, allowed) ∈ windowCommands) (st : LiveState) :
    Cmd.takenIn c st = true ↔ st.code ∈ allowed := by
  simp only [windowCommands, List.mem_cons, Prod.mk.injEq, List.not_mem_nil, or_false] at h
  rcases h with h | h | h | h | h | h | h | h | h <;> obtain ⟨rfl, rfl⟩ := h <;> cases st <;>
    simp [Cmd.takenIn, LiveState.code]

/-- A window command that the window check refuses is refused, whatever else it would check (R6). -/
theorem complete_of_refused {c : Cmd} {allowed : List Nat} (h : (c, allowed) ∈ windowCommands) {p : Vector Word 8}
    {s : State} {code : ResultCode} {rs : List Word} (hw : s.windowCheck c p = .refused code rs) :
    complete c p s = refuse s code rs := by
  simp only [windowCommands, List.mem_cons, Prod.mk.injEq, List.not_mem_nil, or_false] at h
  rcases h with h | h | h | h | h | h | h | h | h <;> obtain ⟨rfl, -⟩ := h
  · simp only [complete, completeQueryWindow, hw]
  · simp only [complete, completeQueryGrant, hw]
  · simp only [complete, completeGrant, hw]
  · simp only [complete, completeSetRights, hw]
  · simp only [complete, completeRevoke, hw]
  · simp only [complete, completeSuspend, hw]
  · simp only [complete, completeResume, hw]
  · simp only [complete, completeRetire, hw]
  · simp only [complete, completeMigrate, hw]

/-- A handle out of range fails the first step of the window check (R6). -/
theorem windowCheck_badParam {s : State} {c : Cmd} {p : Vector Word 8} (h : 63 < param p 0 ∨ 255 < param p 1) :
    s.windowCheck c p = .refused .badParam [] := by
  unfold State.windowCheck
  split
  · rw [if_pos (by omega)]
  · rfl

section Handle

variable {s : State} {c : Cmd} {p : Vector Word 8} {w : WindowId} (h0 : param p 0 = w.val) (h1 : param p 1 ≤ 255)
include h0 h1

/-- A handle of a FREE window fails the second step of the window check (R6). -/
theorem windowCheck_noWindow (hl : (s.window w).life = none) :
    s.windowCheck c p = .refused .noWindow [slotOf (s.window w).generation.toNat] := by
  have hw : (⟨param p 0, h0 ▸ w.isLt⟩ : WindowId) = w := Fin.ext h0
  simp only [State.windowCheck, hw, hl]
  simp [h0, show ¬255 < param p 1 by omega]

/-- A handle of another generation fails the third step of the window check (R6). -/
theorem windowCheck_stale {v : Live} (hl : (s.window w).life = some v)
    (hg : param p 1 ≠ (s.window w).generation.toNat) :
    s.windowCheck c p = .refused .stale [slotOf (s.window w).generation.toNat, slotOf v.state.code] := by
  have hw : (⟨param p 0, h0 ▸ w.isLt⟩ : WindowId) = w := Fin.ext h0
  simp only [State.windowCheck, hw, hl]
  simp [h0, show ¬255 < param p 1 by omega, Ne.symm hg]

end Handle

/-- A refusal leaves every record as it was and writes the slots (R152). -/
theorem commandCompletion_of_refuse {s : State} {c : Cmd} {p : Vector Word 8} (h : s.completing c p)
    {code : ResultCode} {rs : List Word} (hr : complete c p s = refuse s code rs) :
    exec .commandCompletion s = .next (s.completed code rs) := by
  rw [commandCompletion_of_completing h, hr, refuse]

theorem commandCompletion_of_carriedOut {s t : State} {c : Cmd} {p : Vector Word 8} (h : s.completing c p)
    {rs : List Word} (hr : complete c p s = carriedOut t rs) :
    exec .commandCompletion s = .next (t.completed .done rs) := by
  rw [commandCompletion_of_completing h, hr, carriedOut]

/-- Settles O16: the window check is refused step by step, and its refusal is the command's. -/
theorem windowCheckRefuses : Obligations.WindowCheckRefuses := by
  intro s c allowed p hc h
  have hrefuse : ∀ {code rs}, s.windowCheck c p = .refused code rs →
      exec .commandCompletion s = .next (s.completed code rs) :=
    fun hw => commandCompletion_of_refuse h (complete_of_refused hc hw)
  refine ⟨fun hp => hrefuse (windowCheck_badParam hp), fun w h0 h1 => ⟨fun hl => hrefuse (windowCheck_noWindow h0 h1 hl),
    fun v hl => ⟨fun hg => hrefuse (windowCheck_stale h0 h1 hl hg), fun hg hst => hrefuse ?_⟩⟩⟩
  rw [windowCheck_of_names ⟨h0, hl, hg⟩, if_neg fun ht => hst ((takenIn_iff hc v.state).1 ht)]

/-! ### CREATE WINDOW -/

/-- The lowest FREE window is the one below which no window is FREE (R17). -/
theorem freeWindow_of_lowest {s : State} {w : WindowId} (hw : (s.window w).life = none)
    (hx : ∀ x < w, (s.window x).life ≠ none) : s.freeWindow = some w := by
  cases hf : s.freeWindow with
  | none => simpa [hw] using List.find?_eq_none.1 hf w (mem_allWindows w)
  | some y =>
    obtain ⟨hy, below, above, hl, hbelow⟩ := List.find?_eq_some_iff_append.1 hf
    have hrise : (below ++ y :: above).Pairwise (· < ·) := hl ▸ List.pairwise_lt_finRange 64
    have hle : y ≤ w := by
      rcases List.mem_append.1 (hl ▸ mem_allWindows w) with hm | hm
      · simpa [hw] using hbelow w hm
      · rcases List.mem_cons.1 hm with rfl | hm
        · exact le_rfl
        · exact ((List.pairwise_cons.1 (List.pairwise_append.1 hrise).2.1).1 w hm).le
    have hge : ¬y < w := fun hlt => hx y hlt (by simpa using hy)
    rw [le_antisymm hle (not_lt.1 hge)]

theorem freeWindow_none {s : State} (h : ∀ w, (s.window w).life ≠ none) : s.freeWindow = none := by
  refine List.find?_eq_none.2 fun w _ => ?_
  simpa using h w

section Create

variable {s : State} {p : Vector Word 8}

/-- The parameter checks of CREATE WINDOW (R16 steps 1 to 3). -/
theorem completeCreateWindow_badParam
    (h : param p 0 = 0 ∨ 4096 < param p 0 ∨ 1 < param p 1 ∨ (param p 1 = 1 ∧ s.granules < param p 2 + param p 0)) :
    completeCreateWindow p s = refuse s .badParam [] := by
  unfold completeCreateWindow
  split
  · rfl
  · split
    · rfl
    · rw [if_pos]
      rcases h with h | h | h | h
      · omega
      · omega
      · omega
      · exact h

variable (h0 : 1 ≤ param p 0) (h1 : param p 0 ≤ 4096) (h2 : param p 1 ≤ 1)
  (h3 : param p 1 = 1 → param p 2 + param p 0 ≤ s.granules)
include h0 h1 h2 h3

/-- No window is FREE (R16 step 4). -/
theorem completeCreateWindow_full (hw : s.freeWindow = none) :
    completeCreateWindow p s = refuse s .directoryFull [] := by
  unfold completeCreateWindow
  rw [if_neg (by omega), if_neg (by omega), if_neg (by omega), hw]

/-- The extent cannot be allocated (R16 step 5). -/
theorem completeCreateWindow_failed {w : WindowId} (hw : s.freeWindow = some w)
    (ha : allocate (param p 1) (param p 2) (param p 0) s.freeList = none) :
    completeCreateWindow p s = refuse s (if param p 1 = 0 then .noSpace else .overlap) [] := by
  unfold completeCreateWindow
  rw [if_neg (by omega), if_neg (by omega), if_neg (by omega), hw]
  simp only [ha]
  split <;> rfl

/-- The lowest FREE window takes the extent allocated (R17). -/
theorem completeCreateWindow_made {w : WindowId} (hw : s.freeWindow = some w) {x : Extent} {free : List Extent}
    (ha : allocate (param p 1) (param p 2) (param p 0) s.freeList = some (x, free)) :
    completeCreateWindow p s = carriedOut (s.makeWindow w x free)
      [slotOf w.val, slotOf (s.window w).generation.toNat, slotOf x.base, slotOf x.len] := by
  unfold completeCreateWindow
  rw [if_neg (by omega), if_neg (by omega), if_neg (by omega), hw]
  simp only [ha]

end Create

/-- An allocation by placement is first fit for 0 and explicit for 1 (R29, R30). -/
theorem allocate_eq_some {placement base len : Nat} {l free : List Extent} {x : Extent}
    (h : (placement = 0 ∧ firstFit len l = some (x, free)) ∨
      (placement = 1 ∧ x = ⟨base, len⟩ ∧ allocateExplicit x l = some free)) :
    allocate placement base len l = some (x, free) := by
  rcases h with ⟨hp, hf⟩ | ⟨hp, rfl, ha⟩
  · simp [allocate, hp, hf]
  · simp [allocate, hp, ha]

/-- Settles O17: the checks of R16 in their order, then the allocation of R29 or R30. -/
theorem createWindowCompletes : Obligations.CreateWindowCompletes := by
  intro s p h
  have hrefuse : ∀ {code rs}, completeCreateWindow p s = refuse s code rs →
      exec .commandCompletion s = .next (s.completed code rs) := fun hr => commandCompletion_of_refuse h hr
  refine ⟨fun hp => hrefuse (completeCreateWindow_badParam hp), fun h0 h1 h2 h3 =>
    ⟨fun hfull => hrefuse (completeCreateWindow_full h0 h1 h2 h3 (freeWindow_none hfull)), fun w hw hlow => ?_⟩⟩
  have hfree := freeWindow_of_lowest hw hlow
  refine ⟨fun hp hf => ?_, fun hp ha => ?_, fun x free hx => ?_⟩
  · have hfail := completeCreateWindow_failed h0 h1 h2 h3 hfree (by simp [allocate, hp, hf])
    exact hrefuse (by rwa [if_pos hp] at hfail)
  · have hfail := completeCreateWindow_failed h0 h1 h2 h3 hfree (by simp [allocate, hp, ha])
    exact hrefuse (by rwa [if_neg (by omega)] at hfail)
  · exact commandCompletion_of_carriedOut h (t := s.makeWindow w x free)
      (completeCreateWindow_made h0 h1 h2 h3 hfree (allocate_eq_some hx))

/-! ### The queries -/

theorem grantCode_lt (v : Live) (n : NodeId) : v.grantCode n < 256 := by
  unfold Live.grantCode
  split
  · decide
  · rename_i g _
    cases g.state <;> simp [GrantState.code]

/-- The job slot and the quiet-pending flag in QUERY WINDOW P7 (R19, section 11.1.2; logs 30 and 31). -/
theorem slotAndQuiet_eq (v : Live) :
    packBytes (byteOr (v.state.jobSlot.map Fin.val)) (if v.quietPending then 1 else 0) 0 0 =
      slotOf ((v.state.jobSlot.map Fin.val).getD 255 + (if v.quietPending then 256 else 0)) := by
  have hj : byteOr (v.state.jobSlot.map Fin.val) < 256 := by
    cases v.state with
    | migrating j =>
      change j.val < 256
      omega
    | _ => decide
  rw [packBytes_of_lt hj (by split <;> decide) (by decide) (by decide)]
  unfold byteOr
  cases v.quietPending <;> rfl

/-- The largest length is the one that some entry has and no entry exceeds (R33). -/
theorem largestFree_eq {l : List Extent} {largest : Nat} (h1 : ∀ e ∈ l, e.len ≤ largest)
    (h2 : l = [] ∧ largest = 0 ∨ ∃ e ∈ l, e.len = largest) : largestFree l = largest := by
  have hfold : ∀ (l : List Extent) (m : Nat), m ≤ largest → (∀ e ∈ l, e.len ≤ largest) →
      (m = largest ∨ ∃ e ∈ l, e.len = largest) → l.foldl (fun m e => max m e.len) m = largest := by
    intro l
    induction l with
    | nil =>
      rintro m - - (hm | ⟨e, he, -⟩)
      · exact hm
      · simp at he
    | cons e l ih =>
      intro m hm hl hex
      have he := hl e (by simp)
      refine ih _ (max_le hm he) (fun x hx => hl x (by simp [hx])) ?_
      rcases hex with rfl | ⟨x, hx, hlen⟩
      · exact .inl (max_eq_left he)
      · rcases List.mem_cons.1 hx with rfl | hx
        · exact .inl ((max_eq_right (hlen ▸ hm)).trans hlen)
        · exact .inr ⟨x, hx, hlen⟩
  refine hfold l 0 (Nat.zero_le _) h1 ?_
  rcases h2 with ⟨-, rfl⟩ | h2
  · exact .inl rfl
  · exact .inr h2

/-- Settles O18: each query's completion is its report, and the state is the one it found. -/
theorem directoryQueriesReport : Obligations.DirectoryQueriesReport := by
  refine ⟨fun s p w v h hn => commandCompletion_of_carriedOut h ?_, fun s p largest h h1 h2 => ⟨fun e he => ?_, fun hi => ?_⟩⟩
  · simp only [complete, completeQueryWindow, windowCheck_of_names hn, Cmd.takenIn, if_true, slotAndQuiet_eq,
      packBytes_of_lt (grantCode_lt v 0) (grantCode_lt v 1) (grantCode_lt v 2) (grantCode_lt v 3)]
  · refine commandCompletion_of_carriedOut h ?_
    simp only [complete, completeQueryFree, he, largestFree_eq h1 h2, totalFree]
    rfl
  · refine commandCompletion_of_refuse h ?_
    simp only [complete, completeQueryFree, List.getElem?_eq_none hi, largestFree_eq h1 h2, totalFree]

/-! ### The invariants at reset -/

theorem grant_reset (w : WindowId) (n : NodeId) : State.reset.grant w n = none := grant_of_free (by simp) n

theorem homes_reset : State.reset.homes = [] := by simp [State.homes]

theorem spares_reset : State.reset.spares = [] := by simp [State.spares, Slot.spare]

/-- At reset the whole of the smallest pool is one free entry (R27, R28, log 4). -/
theorem owned_reset : State.reset.Owned where
  partition g := by
    have hg : State.reset.granules = 2048 := rfl
    rw [State.extents, homes_reset, spares_reset, hg]
    by_cases h : g < 2048 <;> simp [State.reset, Extent.covers, h]
  ordered := ⟨List.pairwise_singleton .., by simp [State.reset]⟩
  slots j := by simp
  migrating w v j hv := by simp at hv
  homes w v hv := by simp at hv
  boot := ⟨fun _ => rfl, fun _ => ⟨rfl, by simp, by simp⟩⟩

theorem tagsAgree_reset : State.reset.TagsAgree where
  heldOnce n := by simp
  heldTag n e he := by simp at he
  tagHeld n t x hx := by simp at hx
  idsOnce := List.nodup_nil
  idsPast x hx := by simp [State.reset] at hx
  recordTag x hx := by simp [State.reset] at hx
  tagRecord n t y id hy := by simp at hy

theorem noticesDistinct_reset : State.reset.NoticesDistinct := by
  intro n w x number hw
  simp [State.noticeOf, grant_reset] at hw

/-- Settles O60: with no window, no request and no job there is nothing for an invariant to miss. -/
theorem resetMeetsInvariants : Obligations.ResetMeetsInvariants :=
  ⟨reset_wf, fun n => ⟨by simp, fun _ => hold_reset n⟩, tagsAgree_reset, owned_reset, noticesDistinct_reset,
    enduring_mapsOrdered.reset, sound_reset.countsAgree⟩

end Sys2Proof.Machine
end

section
/-! SUPPORT. The rows of the tables of R29 to R31, and the end of a pool operation (chapter 2). -/

namespace Sys2Proof.Machine

/-! ### First fit (R29) -/

/-- First fit passes over the entries that are too short. -/
theorem firstFit_append {len : Nat} {below : List Extent} (h : ∀ x ∈ below, x.len < len) (l : List Extent) :
    firstFit len (below ++ l) = (firstFit len l).map fun r => (r.1, below ++ r.2) := by
  induction below with
  | nil => simp
  | cons e below ih =>
    obtain ⟨he, hrest⟩ := List.forall_mem_cons.1 h
    rw [List.cons_append, firstFit, if_neg he.ne, if_neg he.not_gt, ih hrest, Option.map_map]
    rfl

/-- First fit fails when every entry is too short. -/
theorem firstFit_eq_none {len : Nat} {l : List Extent} (h : ∀ x ∈ l, x.len < len) : firstFit len l = none := by
  simpa [firstFit] using firstFit_append h []

/-! ### Explicit allocation (R30) -/

/-- Explicit allocation passes over the entries that do not hold the extent. -/
theorem allocateExplicit_append {x : Extent} {below : List Extent}
    (h : ∀ e ∈ below, ¬(e.base ≤ x.base ∧ x.base + x.len ≤ e.base + e.len)) (l : List Extent) :
    allocateExplicit x (below ++ l) = (allocateExplicit x l).map fun r => below ++ r := by
  induction below with
  | nil => simp
  | cons e below ih =>
    obtain ⟨he, hrest⟩ := List.forall_mem_cons.1 h
    rw [List.cons_append, allocateExplicit, if_neg he, ih hrest, Option.map_map]
    rfl

/-- Explicit allocation fails when no entry holds the extent. -/
theorem allocateExplicit_eq_none {x : Extent} {l : List Extent}
    (h : ∀ e ∈ l, ¬(e.base ≤ x.base ∧ x.base + x.len ≤ e.base + e.len)) :
    allocateExplicit x l = none := by
  simpa [allocateExplicit] using allocateExplicit_append h []

/-- What an extent leaves over of its entry, by the ends it shares with it (the table of R30). -/
theorem leftover_eq {b n e m : Nat} (h1 : e ≤ b) (h2 : b + n ≤ e + m) :
    leftover ⟨e, m⟩ ⟨b, n⟩ =
      if b = e ∧ n = m then []
      else if b = e then [⟨b + n, m - n⟩]
      else if b + n = e + m then [⟨e, b - e⟩]
      else [⟨e, b - e⟩, ⟨b + n, e + m - b - n⟩] := by
  simp only [leftover]
  by_cases hb : b = e
  · subst hb
    rw [if_neg (lt_irrefl b), List.nil_append]
    by_cases hn : n = m
    · simp [hn]
    · rw [if_pos (by omega), if_neg (by omega : ¬(b = b ∧ n = m)), if_pos rfl]
      simp only [List.cons.injEq, Extent.mk.injEq, true_and, and_true]
      omega
  · rw [if_pos (by omega : e < b), if_neg (by omega : ¬(b = e ∧ n = m)), if_neg hb]
    by_cases he : b + n = e + m
    · rw [if_neg (by omega), if_pos he, List.append_nil]
    · rw [if_pos (by omega), if_neg he]
      simp only [List.cons_append, List.nil_append, List.cons.injEq, Extent.mk.injEq, true_and, and_true]
      omega

/-! ### Release (R31) -/

/-- A release passes over the entries that end below the extent. -/
theorem release_append {x : Extent} {below : List Extent} (h : ∀ e ∈ below, e.base + e.len < x.base)
    (l : List Extent) : release x (below ++ l) = below ++ release x l := by
  induction below with
  | nil => rfl
  | cons e below ih =>
    obtain ⟨he, hrest⟩ := List.forall_mem_cons.1 h
    rw [List.cons_append, release, if_pos he, ih hrest, List.cons_append]

/-- Nothing merges with an extent that ends below every entry above it. -/
theorem mergeAbove_apart {x : Extent} {l : List Extent} (h : ∀ e ∈ l, x.base + x.len < e.base) :
    mergeAbove x l = x :: l := by
  cases l with
  | nil => rfl
  | cons e rest => rw [mergeAbove, if_neg (h e (by simp)).ne]

/-- An extent that ends where the first entry above it begins merges with that entry. -/
theorem mergeAbove_touching {b n k : Nat} (l : List Extent) : mergeAbove ⟨b, n⟩ (⟨b + n, k⟩ :: l) = ⟨b, n + k⟩ :: l :=
  if_pos rfl

/-- An extent that the first entry does not reach is put before it, or merges with it. -/
theorem release_above {x : Extent} {l : List Extent} (h : ∀ e ∈ l, x.base < e.base + e.len) :
    release x l = mergeAbove x l := by
  cases l with
  | nil => rfl
  | cons e rest =>
    have he := h e (by simp)
    rw [release, if_neg (by omega), if_neg (by omega)]

/-- An entry that ends where the extent begins merges with it, and the two with what they touch above. -/
theorem release_touching {b n e : Nat} (he : e ≤ b) (l : List Extent) :
    release ⟨b, n⟩ (⟨e, b - e⟩ :: l) = mergeAbove ⟨e, b + n - e⟩ l := by
  rw [release, if_neg (by simp only; omega), if_pos (by simp only; omega)]
  congr 2
  simp only
  omega

/-- Settles O19: each operation passes over the entries below, and the entry it stops at decides the row. -/
theorem freeExtentListOperations : Obligations.FreeExtentListOperations := by
  refine ⟨fun len => ⟨fun below e above hb => ⟨fun he => ?_, fun he => ?_⟩, fun l hl => firstFit_eq_none hl⟩,
    fun b n => ⟨fun below e m above hb h1 h2 => ?_, fun l hl => allocateExplicit_eq_none hl⟩,
    fun b n below above hb ha => ⟨?_, fun e he => ?_, fun k => ?_, fun e k he => ?_⟩⟩
  · rw [firstFit_append hb, firstFit, if_pos he, ← he]
    rfl
  · rw [firstFit_append hb, firstFit, if_neg he.ne', if_pos he]
    rfl
  · rw [allocateExplicit_append hb, allocateExplicit, if_pos ⟨h1, h2⟩, leftover_eq h1 h2, Option.map_some,
      List.append_assoc]
  · rw [release_append hb, release_above fun x hx => by have := ha x hx; simp only; omega, mergeAbove_apart ha]
  · rw [release_append hb, release_touching he, mergeAbove_apart fun x hx => by have := ha x hx; simp only; omega]
  · rw [release_append hb]
    by_cases hnk : n + k = 0
    · obtain ⟨rfl, rfl⟩ : n = 0 ∧ k = 0 := by omega
      have hz := release_touching (n := 0) (le_refl b) above
      rw [Nat.sub_self, Nat.add_zero, Nat.sub_self] at hz
      rw [Nat.add_zero, hz, mergeAbove_apart ha]
    · rw [release_above, mergeAbove_touching]
      intro x hx
      rcases List.mem_cons.1 hx with rfl | hx
      · simp only
        omega
      · have := ha x hx
        simp only
        omega
  · rw [release_append hb, release_touching he]
    have hm := mergeAbove_touching (b := e) (n := b + n - e) (k := k) above
    rw [show e + (b + n - e) = b + n by omega] at hm
    rw [hm]
    congr 3
    omega

/-! ### The end of a pool operation -/

/-- A byte outside a WRITE whose data is as long as its length keeps its value, whether the WRITE fails or not (R22). -/
theorem value_endOp_outside {op : PoolOp} (hk : op.kind = .write) (hl : op.data.length = op.len) {a : Nat}
    (ha : a < op.addr ∨ op.addr + op.len ≤ a) (s : State) (c : ChannelId) (rest : List PoolOp) (dramFault : Bool) :
    (s.endOp c op rest dramFault).state.pool.value s.powerCycle a = s.pool.value s.powerCycle a := by
  have hp : (s.endOp c op rest dramFault).state.pool =
      if dramFault then s.pool.spoilWrite op.addr op.len else s.pool.store op.addr op.data := by
    cases dramFault <;> simp [State.endOp, Pool.afterEnd, hk, show (Kind.write == Kind.read) = false from rfl]
  rw [hp]
  split
  · exact value_spoilWrite_outside ha _
  · exact value_store_outside (hl.symm ▸ ha) _

/-- A WRITE of one byte whose length says none: no event issues it, but the statement speaks of every operation. -/
def oversizedWrite : PoolOp := { kind := .write, addr := 0, len := 0, data := [1], issuer := .copy 0 }

/-- The part after device reset with 0 stored at pool byte 0. -/
def zeroStored : State := { State.reset with pool := { values := [(0, 0)], marks := [] } }

/-- Refutes O33: its last clause takes a WRITE to reach its length and no more, without the premise that its data is as
long, which the clause before it has and under which it holds (`value_endOp_outside`). A WRITE of length 0 with one byte
of data stores that byte at its address. -/
theorem not_operationEndActsOnPool : ¬Obligations.OperationEndActsOnPool := by
  intro h
  obtain ⟨r, hr, -, -, -, -, -, -, houtside⟩ := h zeroStored 0 oversizedWrite [] false
  have hkept := houtside rfl 0 (.inr (le_refl 0))
  rw [← hr] at hkept
  exact absurd hkept (by decide)

end Sys2Proof.Machine
end

section
/-! SUPPORT. The estate: what the ownership of granules and the form of the pool are judged by, and the changes a step
can make in it. -/

namespace Sys2Proof.Machine

/-! ### The estate -/

/-- What a job slot claims: a busy slot the window it moves, with its home and the spare extent (R131). -/
inductive Claim where
  | idle
  | finished
  | busy (window : WindowId) (home spare : Extent)

/-- The claim of a job slot by its state (R131). -/
def Slot.claim : Slot → Claim
  | .idle => .idle
  | .copying job _ => .busy job.window job.source job.target
  | .aborting job _ => .busy job.window job.source job.target
  | .drainingOld job => .busy job.window job.target job.source
  | .finished _ _ => .finished

/-- The spare extent that a claim names, as a list of at most one. -/
def Claim.spares : Claim → List Extent
  | .busy _ _ spare => [spare]
  | .idle => []
  | .finished => []

/-- How a window in use holds its extent: its state and its home (R1). -/
abbrev Tenure := LiveState × Extent

/-- The tenure of a window in use. -/
def Live.tenure (v : Live) : Tenure := (v.state, v.home)

/-- The home of a window, as a list of at most one. -/
def homesOf (o : Option Tenure) : List Extent := (o.map Prod.snd).toList

/-- What the ownership of granules, the boot record and the form of the pool are judged by. -/
structure Estate where
  tenures : WindowId → Option Tenure
  claims : SlotId → Claim
  freeList : List Extent
  poolCode : BitVec 3
  resetHeld : Bool
  booting : Bool
  taken : Bool
  pool : Pool

/-- The estate of a state. -/
def State.estate (s : State) : Estate :=
  { tenures := fun w => (s.window w).life.map Live.tenure
    claims := fun j => (s.slot j).claim
    freeList := s.freeList
    poolCode := s.poolCode
    resetHeld := s.resetHeld
    booting := s.booting
    taken := s.taken.isSome
    pool := s.pool }

namespace Estate

/-- An estate with another tenure of one window. -/
def withTenure (e : Estate) (w : WindowId) (t : Option Tenure) : Estate :=
  { e with tenures := Function.update e.tenures w t }

/-- An estate with another claim of one job slot. -/
def withClaim (e : Estate) (j : SlotId) (c : Claim) : Estate := { e with claims := Function.update e.claims j c }

/-- An estate with another Free Extent List. -/
def withFree (e : Estate) (l : List Extent) : Estate := { e with freeList := l }

theorem tenures_withTenure_same (e : Estate) (w : WindowId) (t : Option Tenure) : (e.withTenure w t).tenures w = t :=
  Function.update_self ..

theorem tenures_withTenure_ne (e : Estate) {w x : WindowId} (h : x ≠ w) (t : Option Tenure) :
    (e.withTenure w t).tenures x = e.tenures x := Function.update_of_ne h ..

theorem claims_withClaim_same (e : Estate) (j : SlotId) (c : Claim) : (e.withClaim j c).claims j = c :=
  Function.update_self ..

theorem claims_withClaim_ne (e : Estate) {j k : SlotId} (h : k ≠ j) (c : Claim) :
    (e.withClaim j c).claims k = e.claims k := Function.update_of_ne h ..

theorem withTenure_self {e : Estate} {w : WindowId} {t : Option Tenure} (h : t = e.tenures w) :
    e.withTenure w t = e := by
  subst h
  simp [withTenure]

theorem withClaim_self {e : Estate} {j : SlotId} {c : Claim} (h : c = e.claims j) : e.withClaim j c = e := by
  subst h
  simp [withClaim]

end Estate

/-! ### The changes -/

/-- An extent taken out of the Free Extent List, and the list it leaves (R29, R30). -/
structure Allocated (l : List Extent) (x : Extent) (free : List Extent) : Prop where
  cover : ∀ g, coverCount l g = coverCount (x :: free) g
  ordered : 1 ≤ x.len → FreeListOrdered l → FreeListOrdered free

/-- An allocation of either placement takes an extent of the length asked for (R29, R30). -/
theorem allocate_allocated {placement base len : Nat} {l free : List Extent} {x : Extent}
    (h : allocate placement base len l = some (x, free)) : Allocated l x free ∧ x.len = len := by
  unfold allocate at h
  split at h
  · exact ⟨⟨firstFit_cover h, fun _ => firstFit_ordered h⟩, firstFit_length h⟩
  · obtain ⟨r, hr, hxr⟩ := Option.map_eq_some_iff.1 h
    obtain ⟨rfl, rfl⟩ := Prod.mk.inj hxr
    exact ⟨⟨allocateExplicit_cover hr, allocateExplicit_ordered hr⟩, rfl⟩

/-- A state of a window that no job slot names. -/
def LiveState.unmoved (st : LiveState) : Prop := ∀ j, st ≠ .migrating j

/-- A tenure when the job slot that moved the window reaches FINISHED (R15). -/
def Tenure.endMigration (j : SlotId) (t : Tenure) : Tenure := if t.1 = .migrating j then (.active, t.2) else t

/-- The windows of an image take their extents, from a window number on (R169 step 2). -/
def Estate.install (e : Estate) : Nat → List ImageWindow → Estate
  | _, [] => e
  | i, x :: rest =>
    ((e.withFree ((allocateExplicit x.extent e.freeList).getD e.freeList)).withTenure (Fin.ofNat 64 i)
      (some (.active, x.extent))).install (i + 1) rest

/-- The changes that a step can make in the estate. -/
inductive Estate.Change : Estate → Estate → Prop
  /-- A retirement completes (R126). -/
  | retired {e : Estate} {w : WindowId} {home : Extent} (hw : e.tenures w = some (.retiring, home)) :
    Change e ((e.withFree (release home e.freeList)).withTenure w none)
  /-- SUSPEND, RESUME and RETIRE give a window that no job moves another state (R108, R110, R125). -/
  | restated {e : Estate} {w : WindowId} {st : LiveState} {home : Extent} (st' : LiveState)
    (hw : e.tenures w = some (st, home)) (hst : st.unmoved) (hst' : st'.unmoved) :
    Change e (e.withTenure w (some (st', home)))
  /-- CREATE WINDOW makes a window of an extent just allocated (R17). -/
  | made {e : Estate} {w : WindowId} {x : Extent} {free : List Extent} (ht : e.taken = true)
    (hw : e.tenures w = none) (hx : 1 ≤ x.len) (ha : Allocated e.freeList x free) :
    Change e ((e.withFree free).withTenure w (some (.active, x)))
  /-- MIGRATE gives an IDLE slot a window and a target just allocated (R147). -/
  | migrated {e : Estate} {w : WindowId} {j : SlotId} {home x : Extent} {free : List Extent}
    (hw : e.tenures w = some (.active, home)) (hj : e.claims j = .idle) (ha : Allocated e.freeList x free)
    (hx : x.len = home.len) :
    Change e (((e.withFree free).withClaim j (.busy w home x)).withTenure w (some (.migrating j, home)))
  /-- A busy slot reaches FINISHED and gives up its spare extent (R142, R145). -/
  | finished {e : Estate} {j : SlotId} {w : WindowId} {home spare : Extent} (hj : e.claims j = .busy w home spare) :
    Change e (((e.withFree (release spare e.freeList)).withClaim j .finished).withTenure w
      ((e.tenures w).map (Tenure.endMigration j)))
  /-- The switch exchanges the home of a window and the spare extent of its job (R141). -/
  | switched {e : Estate} {j : SlotId} {w : WindowId} {home spare : Extent} (hj : e.claims j = .busy w home spare) :
    Change e ((e.withTenure w ((e.tenures w).map fun t => (t.1, spare))).withClaim j (.busy w spare home))
  /-- An acknowledgement makes a FINISHED slot IDLE (R146). -/
  | acknowledged {e : Estate} {j : SlotId} (hj : e.claims j = .finished) : Change e (e.withClaim j .idle)
  /-- A command is taken (R151). -/
  | took {e : Estate} (hb : e.booting = false) : Change e { e with taken := true }
  /-- A command completes or is abandoned (R152, R164). -/
  | closed {e : Estate} : Change e { e with taken := false }
  /-- A pool operation ends (R22). -/
  | ended {e : Estate} (op : PoolOp) (failed : Bool) : Change e { e with pool := e.pool.afterEnd op failed }
  /-- Device reset abandons a pool operation (R26). -/
  | abandoned {e : Estate} (op : PoolOp) : Change e { e with pool := e.pool.abandon op }
  /-- Device reset from the RESET pin keeps the pool (R165). -/
  | pinReset {e : Estate} : Change e { State.reset.estate with pool := e.pool }
  /-- Device reset at power-on (R165, R22). -/
  | powerOn {e : Estate} : Change e State.reset.estate
  /-- The straps are sampled at the release of device reset (R166, R27). -/
  | released {e : Estate} (hr : e.resetHeld = true) (psz : BitVec 3) :
    Change e { e with resetHeld := false, poolCode := psz, freeList := [⟨0, granulesOfCode psz⟩] }
  /-- The windows of a valid image are installed, or none are, and the boot ends (R169). -/
  | installed {e : Estate} {ws : List ImageWindow} (hb : e.booting = true) (hr : e.resetHeld = false)
    (hlen : ws.length ≤ 8) (hv : badWindow (granulesOfCode e.poolCode) 0 [] [] ws = none) :
    Change e { e.install 0 ws with booting := false }

/-- The estate of `t` comes of that of `s` by changes a step can make. -/
def State.Reaches (s t : State) : Prop := Relation.ReflTransGen Estate.Change s.estate t.estate

namespace State.Reaches

theorem refl (s : State) : s.Reaches s := Relation.ReflTransGen.refl

theorem trans {s t u : State} (h : s.Reaches t) (h' : t.Reaches u) : s.Reaches u := Relation.ReflTransGen.trans h h'

/-- A state of the same estate is reached. -/
theorem of_eq {s t : State} (h : t.estate = s.estate) : s.Reaches t := by
  rw [State.Reaches, h]

/-- One change of the estate. -/
theorem single {s t : State} {e : Estate} (h : Estate.Change s.estate e) (ht : t.estate = e) : s.Reaches t := by
  subst ht
  exact Relation.ReflTransGen.single h

/-- What does not change the estate is done after what may. -/
theorem then_eq {s t u : State} (h : s.Reaches t) (hu : u.estate = t.estate) : s.Reaches u := h.trans (of_eq hu)

/-- What does not change the estate is done before what may. -/
theorem of_eq_left {s t u : State} (h : t.Reaches u) (ht : t.estate = s.estate) : s.Reaches u := (of_eq ht).trans h

end State.Reaches

/-- What every change of the estate keeps, a state keeps in whatever it reaches. -/
theorem State.Reaches.keeps {P : Estate → Prop} (hP : ∀ {e f}, Estate.Change e f → P e → P f) {s t : State}
    (h : s.Reaches t) (hs : P s.estate) : P t.estate := by
  have hall : ∀ {e f}, Relation.ReflTransGen Estate.Change e f → P e → P f := by
    intro e f hef he
    induction hef with
    | refl => exact he
    | tail _ hc ih => exact hP hc ih
  exact hall h hs

/-- Deeds one after another reach what each of them does. -/
theorem foldl_reaches {α : Type} {f : State → α → State} (hf : ∀ (s : State) (a : α), s.Reaches (f s a))
    (l : List α) (s : State) :
    s.Reaches (l.foldl f s) := by
  induction l generalizing s with
  | nil => exact .refl s
  | cons a l ih => exact (hf s a).trans (ih _)

end Sys2Proof.Machine
end

section
/-! SUPPORT. The law of R28 on the estate, and that every change keeps it. -/

namespace Sys2Proof.Machine

/-! ### Covers of granules -/

theorem coverCount_cons_eq (x : Extent) (l : List Extent) (g : Nat) :
    coverCount (x :: l) g = coverCount [x] g + coverCount l g := coverCount_append [x] l g

/-- Where one extent stands twice a granule would be covered twice: extents that share no granule lie apart. -/
theorem apart_of_cover {x : Extent} {l : List Extent} (hx : 1 ≤ x.len) (hl : ∀ e ∈ l, 1 ≤ e.len)
    (h : ∀ g, coverCount (x :: l) g ≤ 1) : ∀ e ∈ l, e.base + e.len ≤ x.base ∨ x.base + x.len ≤ e.base := by
  intro e he
  by_contra hc
  have hlen := hl e he
  have hpos : 0 < coverCount l (max e.base x.base) := List.countP_pos_iff.2 ⟨e, he, covers_iff.2 (by omega)⟩
  have hone := h (max e.base x.base)
  rw [coverCount_cons, if_pos (by omega)] at hone
  omega

/-- An explicit allocation succeeds when every granule of the extent is free: in a merged list a run of free granules
lies in one entry (R27, R30). -/
theorem allocateExplicit_of_cover {x : Extent} {l : List Extent} (ho : FreeListOrdered l) (hx : 1 ≤ x.len)
    (hc : ∀ g, x.base ≤ g → g < x.base + x.len → 0 < coverCount l g) : ∃ l', allocateExplicit x l = some l' := by
  induction l with
  | nil => exact absurd (hc x.base le_rfl (by omega)) (by simp)
  | cons e rest ih =>
    obtain ⟨hp1, hp2⟩ := List.pairwise_cons.1 ho.1
    have habove : ∀ g, 0 < coverCount rest g → e.base + e.len < g := by
      intro g hg
      obtain ⟨f, hf, hfg⟩ := List.countP_pos_iff.1 hg
      have := hp1 f hf
      have := (covers_iff.1 hfg).1
      omega
    unfold allocateExplicit
    split
    · exact ⟨_, rfl⟩
    · rename_i hnot
      have hbeyond : e.base + e.len < x.base := by
        have hfirst := hc x.base le_rfl (by omega)
        rw [coverCount_cons] at hfirst
        split at hfirst
        · have hend := hc (e.base + e.len) (by omega) (by omega)
          rw [coverCount_cons, if_neg (by omega)] at hend
          exact absurd (habove _ hend) (lt_irrefl _)
        · exact habove _ hfirst
      obtain ⟨l', hl'⟩ := ih ⟨hp2, fun f hf => ho.2 f (by simp [hf])⟩ fun g h1 h2 => by
        have hg := hc g h1 h2
        rwa [coverCount_cons, if_neg (by omega)] at hg
      exact ⟨e :: l', by rw [hl']; rfl⟩

/-- A sum over indices when what is counted at one of them changes. -/
theorem sum_update {n : Nat} {α : Type} (c : α → Nat) (f : Fin n → α) (i : Fin n) (x : α) :
    ∑ k, c (Function.update f i x k) + c (f i) = ∑ k, c (f k) + c x := by
  rw [← Finset.add_sum_erase _ _ (Finset.mem_univ i), ← Finset.add_sum_erase _ (fun k => c (f k)) (Finset.mem_univ i),
    Function.update_self]
  have hrest : ∑ k ∈ Finset.univ.erase i, c (Function.update f i x k) = ∑ k ∈ Finset.univ.erase i, c (f k) :=
    Finset.sum_congr rfl fun k hk => by rw [Function.update_of_ne (Finset.ne_of_mem_erase hk)]
  omega

namespace Estate

/-- How many extents of the part cover a granule: free entries, homes and spares. -/
def cover (e : Estate) (g : Nat) : Nat :=
  coverCount e.freeList g + ∑ w, coverCount (homesOf (e.tenures w)) g + ∑ j, coverCount (e.claims j).spares g

theorem cover_withFree (e : Estate) (l : List Extent) (g : Nat) :
    (e.withFree l).cover g + coverCount e.freeList g = e.cover g + coverCount l g := by
  simp only [cover, withFree]
  omega

theorem cover_withTenure (e : Estate) (w : WindowId) (t : Option Tenure) (g : Nat) :
    (e.withTenure w t).cover g + coverCount (homesOf (e.tenures w)) g = e.cover g + coverCount (homesOf t) g := by
  have hsum : ∑ x, coverCount (homesOf (Function.update e.tenures w t x)) g + coverCount (homesOf (e.tenures w)) g =
      ∑ x, coverCount (homesOf (e.tenures x)) g + coverCount (homesOf t) g :=
    sum_update (fun o => coverCount (homesOf o) g) e.tenures w t
  simp only [cover, withTenure]
  omega

theorem cover_withClaim (e : Estate) (j : SlotId) (c : Claim) (g : Nat) :
    (e.withClaim j c).cover g + coverCount (e.claims j).spares g = e.cover g + coverCount c.spares g := by
  have hsum : ∑ k, coverCount (Function.update e.claims j c k).spares g + coverCount (e.claims j).spares g =
      ∑ k, coverCount (e.claims k).spares g + coverCount c.spares g :=
    sum_update (fun c => coverCount c.spares g) e.claims j c
  simp only [cover, withClaim]
  omega

/-- The law of R28 with what carries it from step to step, but for the boot record. -/
structure Lawful (e : Estate) : Prop where
  partition : ∀ g, e.cover g = if g < granulesOfCode e.poolCode then 1 else 0
  ordered : FreeListOrdered e.freeList
  slots : ∀ {j w home spare}, e.claims j = .busy w home spare →
    spare.len = home.len ∧ e.tenures w = some (.migrating j, home)
  migrating : ∀ {w j home}, e.tenures w = some (.migrating j, home) → ∃ home' spare, e.claims j = .busy w home' spare
  long : ∀ {w t}, e.tenures w = some t → 1 ≤ t.2.len

/-- Before the installation the part holds no window, no job and no command (R2, R130, R170). -/
structure Clean (e : Estate) : Prop where
  held : e.resetHeld = true → e.booting = true
  taken : e.booting = true → e.taken = false
  free : e.booting = true → ∀ w, e.tenures w = none
  idle : e.booting = true → ∀ j, e.claims j = .idle

end Estate

/-! ### The law of the estate is the law of the part -/

theorem coverCount_filterMap {α : Type} (f : α → Option Extent) (l : List α) (g : Nat) :
    coverCount (l.filterMap f) g = (l.map fun a => coverCount (f a).toList g).sum := by
  induction l with
  | nil => rfl
  | cons a l ih =>
    rw [List.filterMap_cons, List.map_cons, List.sum_cons, ← ih]
    cases f a with
    | none => simp
    | some x => exact coverCount_cons_eq ..

theorem spares_claim (t : Slot) : t.claim.spares = t.spare.toList := by
  cases t <;> rfl

/-- The extents of the part, counted by their owners. -/
theorem cover_estate (s : State) (g : Nat) : s.estate.cover g = coverCount s.extents g := by
  have hhome : ∀ w, homesOf (s.estate.tenures w) = ((s.window w).life.map fun v => v.home).toList := by
    intro w
    simp only [homesOf, State.estate, Option.map_map]
    rfl
  simp only [Estate.cover, State.extents, State.homes, State.spares, coverCount_append, coverCount_filterMap, hhome]
  simp only [State.estate, spares_claim, Fin.sum_univ_def]
  rfl

theorem tenures_estate {s : State} {w : WindowId} {st : LiveState} {home : Extent} :
    s.estate.tenures w = some (st, home) ↔ ∃ v, (s.window w).life = some v ∧ v.state = st ∧ v.home = home := by
  simp [State.estate, Live.tenure]

theorem claim_eq_idle {t : Slot} : t.claim = .idle ↔ t = .idle := by
  cases t <;> simp [Slot.claim]

theorem slotsOwn_iff (s : State) :
    s.slotsOwn ↔ ∀ {j w home spare}, s.estate.claims j = .busy w home spare →
      spare.len = home.len ∧ s.estate.tenures w = some (.migrating j, home) := by
  simp only [State.slotsOwn, tenures_estate]
  constructor
  · intro h j w home spare hj
    have hown := h j
    change (s.slot j).claim = _ at hj
    cases hs : s.slot j <;> rw [hs] at hj hown <;> simp only [Slot.claim, Claim.busy.injEq, reduceCtorEq] at hj <;>
      obtain ⟨rfl, rfl, rfl⟩ := hj
    · exact hown
    · exact hown
    · exact ⟨hown.1.symm, hown.2⟩
  · intro h j
    have hclaim : ∀ w home spare, (s.slot j).claim = .busy w home spare → _ := fun w home spare => h (j := j)
    cases hs : s.slot j with
    | idle => trivial
    | finished job outcome => trivial
    | copying job mark => exact hclaim _ _ _ (by rw [hs]; rfl)
    | aborting job reason => exact hclaim _ _ _ (by rw [hs]; rfl)
    | drainingOld job =>
      obtain ⟨hlen, hlive⟩ := hclaim job.window job.target job.source (by rw [hs]; rfl)
      exact ⟨hlen.symm, hlive⟩

theorem migratingOwned_iff (s : State) :
    s.migratingOwned ↔ ∀ {w j home}, s.estate.tenures w = some (.migrating j, home) →
      ∃ home' spare, s.estate.claims j = .busy w home' spare := by
  have hclaim : ∀ j w, (∃ job, (s.slot j).job = some job ∧ job.window = w ∧ (s.slot j).spare.isSome) ↔
      ∃ home' spare, s.estate.claims j = .busy w home' spare := by
    intro j w
    change _ ↔ ∃ home' spare, (s.slot j).claim = .busy w home' spare
    cases s.slot j <;> simp [Slot.claim, Slot.job, Slot.spare]
  simp only [State.migratingOwned, ← hclaim, tenures_estate]
  constructor
  · rintro h w j home ⟨v, hv, hst, -⟩
    exact h w v j hv hst
  · intro h w v j hv hst
    exact h ⟨v, hv, hst, rfl⟩

theorem bootClean_iff (s : State) : s.bootClean ↔ s.estate.Clean := by
  have hfree : ∀ w, s.estate.tenures w = none ↔ (s.window w).life = none := by simp [State.estate]
  have hidle : ∀ j, s.estate.claims j = .idle ↔ s.slot j = .idle := fun j => claim_eq_idle
  have htaken : s.estate.taken = false ↔ s.taken = none := by simp [State.estate]
  constructor
  · rintro ⟨hr, hb⟩
    exact ⟨hr, fun h => htaken.2 (hb h).1, fun h w => (hfree w).2 ((hb h).2.1 w), fun h j => (hidle j).2 ((hb h).2.2 j)⟩
  · rintro ⟨hr, ht, hf, hi⟩
    exact ⟨hr, fun h => ⟨htaken.1 (ht h), fun w => (hfree w).1 (hf h w), fun j => (hidle j).1 (hi h j)⟩⟩

/-- The part is owned exactly when its estate is lawful and clean. -/
theorem owned_iff (s : State) : s.Owned ↔ s.estate.Lawful ∧ s.estate.Clean := by
  have hpart : s.partitioned ↔ ∀ g, s.estate.cover g = if g < granulesOfCode s.estate.poolCode then 1 else 0 := by
    simp only [State.partitioned, cover_estate, coverCount_eq]
    rfl
  have hlong : s.homesHold ↔ ∀ {w t}, s.estate.tenures w = some t → 1 ≤ t.2.len := by
    constructor
    · rintro h w ⟨st, home⟩ hw
      obtain ⟨v, hv, -, rfl⟩ := tenures_estate.1 hw
      exact h w v hv
    · intro h w v hv
      exact h (tenures_estate.2 ⟨v, hv, rfl, rfl⟩)
  constructor
  · intro h
    exact ⟨⟨hpart.1 h.partition, h.ordered, (slotsOwn_iff s).1 h.slots, (migratingOwned_iff s).1 h.migrating,
      hlong.1 h.homes⟩, (bootClean_iff s).1 h.boot⟩
  · rintro ⟨h, hc⟩
    exact ⟨hpart.2 h.partition, h.ordered, (slotsOwn_iff s).2 h.slots, (migratingOwned_iff s).2 h.migrating,
      hlong.2 h.long, (bootClean_iff s).2 hc⟩

end Sys2Proof.Machine
end

section
/-! SUPPORT. Every change of the estate keeps the pool canonical, the boot record clean and the law of R28. -/

namespace Sys2Proof.Machine

namespace Estate

theorem install_frame (e : Estate) (i : Nat) (ws : List ImageWindow) :
    (e.install i ws).pool = e.pool ∧ (e.install i ws).resetHeld = e.resetHeld := by
  induction ws generalizing e i with
  | nil => exact ⟨rfl, rfl⟩
  | cons x rest ih => exact ih ..

/-! ### The pool and the boot record -/

/-- Only the end of a pool operation and a device reset act on the pool, and both keep its form (R22, R26). -/
theorem Change.pool_wf {e f : Estate} (hc : Change e f) (h : e.pool.wf = true) : f.pool.wf = true := by
  cases hc with
  | ended op failed => exact afterEnd_wf h op failed
  | abandoned op => exact abandon_wf h op
  | powerOn => exact reset_wf
  | installed => exact (install_frame e 0 _).1 ▸ h
  | _ => exact h

/-- A part that has booted keeps a clean boot record as long as it is not reset. -/
theorem Clean.of_booted {e f : Estate} (h : e.Clean) (hb : e.booting = false) (hfb : f.booting = e.booting)
    (hfr : f.resetHeld = e.resetHeld) : f.Clean := by
  have hf : ¬f.booting = true := by simp [hfb, hb]
  exact ⟨fun hr => hfb ▸ h.held (hfr ▸ hr), fun hc => absurd hc hf, fun hc => absurd hc hf, fun hc => absurd hc hf⟩

/-- A window in use tells that the part has booted. -/
theorem Clean.booted_of_tenure {e : Estate} (h : e.Clean) {w : WindowId} {t : Tenure} (hw : e.tenures w = some t) :
    e.booting = false := by
  by_contra hb
  simp [h.free (by simpa using hb) w] at hw

/-- A job slot that is not IDLE tells that the part has booted. -/
theorem Clean.booted_of_claim {e : Estate} (h : e.Clean) {j : SlotId} {c : Claim} (hj : e.claims j = c)
    (hc : c ≠ .idle) : e.booting = false := by
  by_contra hb
  exact hc (hj.symm.trans (h.idle (by simpa using hb) j))

theorem clean_reset : State.reset.estate.Clean := ((owned_iff _).1 owned_reset).2

/-- Every change keeps the boot record clean: what it needs to find, a part that boots does not have (R170). -/
theorem Change.clean {e f : Estate} (hc : Change e f) (h : e.Clean) : f.Clean := by
  cases hc with
  | retired hw => exact h.of_booted (h.booted_of_tenure hw) rfl rfl
  | restated _ hw => exact h.of_booted (h.booted_of_tenure hw) rfl rfl
  | made ht =>
    refine h.of_booted ?_ rfl rfl
    by_contra hb
    simp [h.taken (by simpa using hb)] at ht
  | migrated hw => exact h.of_booted (h.booted_of_tenure hw) rfl rfl
  | finished hj => exact h.of_booted (h.booted_of_claim hj (by simp)) rfl rfl
  | switched hj => exact h.of_booted (h.booted_of_claim hj (by simp)) rfl rfl
  | acknowledged hj => exact h.of_booted (h.booted_of_claim hj (by simp)) rfl rfl
  | took hb => exact h.of_booted hb rfl rfl
  | closed => exact ⟨h.held, fun _ => rfl, h.free, h.idle⟩
  | ended => exact ⟨h.held, h.taken, h.free, h.idle⟩
  | abandoned => exact ⟨h.held, h.taken, h.free, h.idle⟩
  | pinReset => exact ⟨clean_reset.held, clean_reset.taken, clean_reset.free, clean_reset.idle⟩
  | powerOn => exact clean_reset
  | released => exact ⟨fun hr => by simp at hr, h.taken, h.free, h.idle⟩
  | installed hb hr =>
    refine ⟨fun hc => ?_, fun hc => by simp at hc, fun hc => by simp at hc, fun hc => by simp at hc⟩
    change (e.install 0 _).resetHeld = true at hc
    rw [(install_frame e 0 _).2, hr] at hc
    simp at hc

/-! ### The law of R28 -/

namespace Lawful

variable {e : Estate} (h : e.Lawful)
include h

/-- Equal windows, slots, Free Extent List and pool size have equal law. -/
theorem congr {f : Estate} (ht : f.tenures = e.tenures) (hc : f.claims = e.claims) (hl : f.freeList = e.freeList)
    (hp : f.poolCode = e.poolCode) : f.Lawful := by
  have hcover : ∀ g, f.cover g = e.cover g := fun g => by simp only [cover, ht, hc, hl]
  exact ⟨fun g => by rw [hcover, hp, h.partition], hl ▸ h.ordered, fun hj => ht ▸ h.slots (hc ▸ hj),
    fun hw => hc ▸ h.migrating (ht ▸ hw), fun hw => h.long (ht ▸ hw)⟩

theorem cover_le_one (g : Nat) : e.cover g ≤ 1 := by
  rw [h.partition]
  split <;> omega

/-- A home shares no granule with the Free Extent List (R28). -/
theorem release_home {w : WindowId} {t : Tenure} (hw : e.tenures w = some t) :
    FreeListOrdered (release t.2 e.freeList) := by
  refine release_ordered (h.long hw) h.ordered (apart_of_cover (h.long hw) h.ordered.2 fun g => ?_)
  have hcover := cover_withTenure e w none g
  have hhome : coverCount (homesOf (e.tenures w)) g = coverCount [t.2] g := by rw [hw]; rfl
  have hfree : coverCount e.freeList g ≤ (e.withTenure w none).cover g :=
    (Nat.le_add_right ..).trans (Nat.le_add_right ..)
  have hone := h.cover_le_one g
  have hnone : coverCount (homesOf none) g = 0 := rfl
  rw [coverCount_cons_eq]
  omega

/-- A spare extent shares no granule with the Free Extent List (R28, R131). -/
theorem release_spare {j : SlotId} {w : WindowId} {home spare : Extent} (hj : e.claims j = .busy w home spare) :
    FreeListOrdered (release spare e.freeList) := by
  obtain ⟨hlen, hw⟩ := h.slots hj
  have hlong : 1 ≤ spare.len := hlen ▸ h.long hw
  refine release_ordered hlong h.ordered (apart_of_cover hlong h.ordered.2 fun g => ?_)
  have hcover := cover_withClaim e j .idle g
  have hspare : coverCount (e.claims j).spares g = coverCount [spare] g := by rw [hj]; rfl
  have hfree : coverCount e.freeList g ≤ (e.withClaim j .idle).cover g :=
    (Nat.le_add_right ..).trans (Nat.le_add_right ..)
  have hone := h.cover_le_one g
  have hnone : coverCount Claim.idle.spares g = 0 := rfl
  rw [coverCount_cons_eq]
  omega

/-- A change of one window that no job slot names before or after it. -/
theorem change_window {w : WindowId} {t : Option Tenure} {l : List Extent}
    (hold : ∀ u, e.tenures w = some u → u.1.unmoved) (hnew : ∀ u, t = some u → u.1.unmoved ∧ 1 ≤ u.2.len)
    (hl : FreeListOrdered l)
    (hcover : ∀ g, coverCount l g + coverCount (homesOf t) g =
      coverCount e.freeList g + coverCount (homesOf (e.tenures w)) g) : ((e.withFree l).withTenure w t).Lawful where
  partition g := by
    have h1 := cover_withTenure (e.withFree l) w t g
    have h2 := cover_withFree e l g
    have h3 : coverCount (homesOf ((e.withFree l).tenures w)) g = coverCount (homesOf (e.tenures w)) g := rfl
    have h4 := hcover g
    exact (show _ = e.cover g by omega).trans (h.partition g)
  ordered := hl
  slots {j x home spare} hj := by
    obtain ⟨hlen, hx⟩ := h.slots hj
    have hne : x ≠ w := fun hxw => hold _ (hxw ▸ hx) j rfl
    exact ⟨hlen, (tenures_withTenure_ne _ hne t).trans hx⟩
  migrating {x j home} hx := by
    by_cases hxw : x = w
    · subst hxw
      rw [tenures_withTenure_same] at hx
      exact absurd rfl ((hnew _ hx).1 j)
    · exact h.migrating ((tenures_withTenure_ne _ hxw t).symm.trans hx)
  long {x u} hx := by
    by_cases hxw : x = w
    · subst hxw
      rw [tenures_withTenure_same] at hx
      exact (hnew _ hx).2
    · exact h.long ((tenures_withTenure_ne _ hxw t).symm.trans hx)

/-- A change of one window and one job slot that name no others before or after it. -/
theorem change_job {j : SlotId} {w : WindowId} {c : Claim} {st : LiveState} {y : Extent} {l : List Extent}
    (hwindow : ∀ u, e.tenures w = some u → ∀ k, u.1 = .migrating k → k = j)
    (hslot : ∀ {x home spare}, e.claims j = .busy x home spare → x = w)
    (hclaim : ∀ {x home spare}, c = .busy x home spare → x = w ∧ spare.len = home.len ∧ st = .migrating j ∧ y = home)
    (htenure : ∀ k, st = .migrating k → k = j ∧ ∃ home spare, c = .busy w home spare) (hlong : 1 ≤ y.len)
    (hl : FreeListOrdered l)
    (hcover : ∀ g, coverCount l g + coverCount [y] g + coverCount c.spares g =
      coverCount e.freeList g + coverCount (homesOf (e.tenures w)) g + coverCount (e.claims j).spares g) :
    (((e.withFree l).withClaim j c).withTenure w (some (st, y))).Lawful where
  partition g := by
    have h1 := cover_withTenure ((e.withFree l).withClaim j c) w (some (st, y)) g
    have h2 := cover_withClaim (e.withFree l) j c g
    have h3 := cover_withFree e l g
    have h4 : coverCount (homesOf (((e.withFree l).withClaim j c).tenures w)) g =
        coverCount (homesOf (e.tenures w)) g := rfl
    have h5 : coverCount ((e.withFree l).claims j).spares g = coverCount (e.claims j).spares g := rfl
    have h6 : coverCount (homesOf (some (st, y))) g = coverCount [y] g := rfl
    have h7 := hcover g
    exact (show _ = e.cover g by omega).trans (h.partition g)
  ordered := hl
  slots {k x home spare} hk := by
    by_cases hkj : k = j
    · subst hkj
      have hc : c = .busy x home spare := (claims_withClaim_same (e.withFree l) k c).symm.trans hk
      obtain ⟨rfl, hlen, rfl, rfl⟩ := hclaim hc
      exact ⟨hlen, tenures_withTenure_same ..⟩
    · obtain ⟨hlen, hx⟩ := h.slots ((claims_withClaim_ne (e.withFree l) hkj c).symm.trans hk)
      have hne : x ≠ w := fun hxw => hkj (hwindow _ (hxw ▸ hx) k rfl)
      exact ⟨hlen, (tenures_withTenure_ne _ hne _).trans hx⟩
  migrating {x k home} hx := by
    by_cases hxw : x = w
    · subst hxw
      have ht : (st, y) = (.migrating k, home) := Option.some.inj ((tenures_withTenure_same ..).symm.trans hx)
      obtain ⟨rfl, home', spare, hc⟩ := htenure k (congrArg Prod.fst ht)
      exact ⟨home', spare, (claims_withClaim_same (e.withFree l) k c).trans hc⟩
    · obtain ⟨home', spare, hk⟩ := h.migrating ((tenures_withTenure_ne _ hxw _).symm.trans hx)
      have hkj : k ≠ j := fun hkj => hxw (hslot (hkj ▸ hk))
      exact ⟨home', spare, (claims_withClaim_ne (e.withFree l) hkj c).trans hk⟩
  long {x u} hx := by
    by_cases hxw : x = w
    · subst hxw
      obtain rfl : (st, y) = u := Option.some.inj ((tenures_withTenure_same ..).symm.trans hx)
      exact hlong
    · exact h.long ((tenures_withTenure_ne _ hxw _).symm.trans hx)

theorem retired {w : WindowId} {home : Extent} (hw : e.tenures w = some (.retiring, home)) :
    ((e.withFree (release home e.freeList)).withTenure w none).Lawful := by
  refine h.change_window (fun u hu => ?_) (fun u hu => by simp at hu) (h.release_home hw) fun g => ?_
  · obtain rfl := Option.some.inj (hw.symm.trans hu)
    exact fun j => by simp
  · have hnone : coverCount (homesOf none) g = 0 := rfl
    have hhome : coverCount (homesOf (some (LiveState.retiring, home))) g = coverCount [home] g := rfl
    have hcons := coverCount_cons_eq home e.freeList g
    rw [release_cover, hw]
    omega

theorem restated {w : WindowId} {st st' : LiveState} {home : Extent} (hw : e.tenures w = some (st, home))
    (hst : st.unmoved) (hst' : st'.unmoved) : (e.withTenure w (some (st', home))).Lawful := by
  have hlong : 1 ≤ home.len := h.long hw
  refine h.change_window (l := e.freeList) (fun u hu => ?_) (fun u hu => ?_) h.ordered fun g => ?_
  · obtain rfl := Option.some.inj (hw.symm.trans hu)
    exact hst
  · obtain rfl := Option.some.inj hu
    exact ⟨hst', hlong⟩
  · rw [hw]
    rfl

theorem made {w : WindowId} {x : Extent} {free : List Extent} (hw : e.tenures w = none)
    (hx : 1 ≤ x.len) (ha : Allocated e.freeList x free) :
    ((e.withFree free).withTenure w (some (.active, x))).Lawful := by
  refine h.change_window (fun u hu => by simp [hw] at hu) (fun u hu => ?_) (ha.ordered hx h.ordered) fun g => ?_
  · obtain rfl := Option.some.inj hu
    exact ⟨fun j => by simp, hx⟩
  · rw [ha.cover, coverCount_cons_eq, hw]
    exact Nat.add_comm ..

theorem migrated {w : WindowId} {j : SlotId} {home x : Extent} {free : List Extent}
    (hw : e.tenures w = some (.active, home)) (hj : e.claims j = .idle) (ha : Allocated e.freeList x free)
    (hx : x.len = home.len) :
    (((e.withFree free).withClaim j (.busy w home x)).withTenure w (some (.migrating j, home))).Lawful := by
  have hlong : 1 ≤ home.len := h.long hw
  refine h.change_job (fun u hu k hk => ?_) (fun hc => by simp [hj] at hc) (fun hc => ?_) (fun k hk => ?_) hlong
    (ha.ordered (hx ▸ hlong) h.ordered) fun g => ?_
  · obtain rfl := Option.some.inj (hw.symm.trans hu)
    simp at hk
  · obtain ⟨rfl, rfl, rfl⟩ := Claim.busy.inj hc
    exact ⟨rfl, hx, rfl, rfl⟩
  · exact ⟨(LiveState.migrating.inj hk).symm, _, _, rfl⟩
  · have hspare : coverCount (Claim.busy w home x).spares g = coverCount [x] g := rfl
    have hidle : coverCount Claim.idle.spares g = 0 := rfl
    have hhome : coverCount (homesOf (some (LiveState.active, home))) g = coverCount [home] g := rfl
    have hcons := coverCount_cons_eq x free g
    rw [ha.cover, hw, hj]
    omega

theorem finished {j : SlotId} {w : WindowId} {home spare : Extent} (hj : e.claims j = .busy w home spare) :
    (((e.withFree (release spare e.freeList)).withClaim j .finished).withTenure w
      ((e.tenures w).map (Tenure.endMigration j))).Lawful := by
  have hw := (h.slots hj).2
  have hlong : 1 ≤ home.len := h.long hw
  have ht : (e.tenures w).map (Tenure.endMigration j) = some (.active, home) := by simp [hw, Tenure.endMigration]
  rw [ht]
  refine h.change_job (fun u hu k hk => ?_) (fun hc => ?_) (fun hc => by simp at hc) (fun k hk => by simp at hk)
    hlong (h.release_spare hj) fun g => ?_
  · obtain rfl := Option.some.inj (hw.symm.trans hu)
    exact (LiveState.migrating.inj hk).symm
  · exact (Claim.busy.inj (hc.symm.trans hj)).1
  · have hspare : coverCount (Claim.busy w home spare).spares g = coverCount [spare] g := rfl
    have hfinished : coverCount Claim.finished.spares g = 0 := rfl
    have hhome : coverCount (homesOf (some (LiveState.migrating j, home))) g = coverCount [home] g := rfl
    have hcons := coverCount_cons_eq spare e.freeList g
    rw [release_cover, hw, hj]
    omega

theorem switched {j : SlotId} {w : WindowId} {home spare : Extent} (hj : e.claims j = .busy w home spare) :
    ((e.withTenure w ((e.tenures w).map fun t => (t.1, spare))).withClaim j (.busy w spare home)).Lawful := by
  obtain ⟨hlen, hw⟩ := h.slots hj
  have ht : (e.tenures w).map (fun t => (t.1, spare)) = some (.migrating j, spare) := by simp [hw]
  rw [ht]
  refine h.change_job (l := e.freeList) (fun u hu k hk => ?_) (fun hc => ?_) (fun hc => ?_) (fun k hk => ?_)
    (hlen ▸ h.long hw) h.ordered fun g => ?_
  · obtain rfl := Option.some.inj (hw.symm.trans hu)
    exact (LiveState.migrating.inj hk).symm
  · exact (Claim.busy.inj (hc.symm.trans hj)).1
  · obtain ⟨rfl, rfl, rfl⟩ := Claim.busy.inj hc
    exact ⟨rfl, hlen.symm, rfl, rfl⟩
  · exact ⟨(LiveState.migrating.inj hk).symm, _, _, rfl⟩
  · have hspare : coverCount (Claim.busy w home spare).spares g = coverCount [spare] g := rfl
    have hspare' : coverCount (Claim.busy w spare home).spares g = coverCount [home] g := rfl
    have hhome : coverCount (homesOf (some (LiveState.migrating j, home))) g = coverCount [home] g := rfl
    rw [hw, hj]
    omega

theorem acknowledged {j : SlotId} (hj : e.claims j = .finished) : (e.withClaim j .idle).Lawful where
  partition g := by
    have h1 := cover_withClaim e j .idle g
    have hidle : coverCount Claim.idle.spares g = 0 := rfl
    have hfinished : coverCount (e.claims j).spares g = 0 := by rw [hj]; rfl
    exact (show _ = e.cover g by omega).trans (h.partition g)
  ordered := h.ordered
  slots {k x home spare} hk := by
    by_cases hkj : k = j
    · subst hkj
      exact absurd ((claims_withClaim_same ..).symm.trans hk) (by simp)
    · exact h.slots ((claims_withClaim_ne _ hkj _).symm.trans hk)
  migrating {x k home} hx := by
    obtain ⟨home', spare, hk⟩ := h.migrating hx
    have hkj : k ≠ j := fun hkj => by simp [hkj, hj] at hk
    exact ⟨home', spare, (claims_withClaim_ne _ hkj _).trans hk⟩
  long hx := h.long hx

end Lawful

/-! ### The release of device reset and the installation -/

/-- With no window in use and no busy slot, the whole pool as one free entry is lawful (R27). -/
theorem lawful_of_empty {e : Estate} (hw : ∀ w, e.tenures w = none) (hj : ∀ j, e.claims j = .idle)
    (hl : e.freeList = [⟨0, granulesOfCode e.poolCode⟩]) : e.Lawful where
  partition g := by
    have h0 : coverCount e.freeList g = if g < granulesOfCode e.poolCode then 1 else 0 := by
      rw [hl, coverCount_cons]
      simp
    simpa [cover, hw, hj, homesOf, Claim.spares] using h0
  ordered := by
    have hlong : 1 ≤ granulesOfCode e.poolCode := by
      unfold granulesOfCode
      split <;> decide
    exact ⟨hl ▸ List.pairwise_singleton .., fun x hx => by simp [hl] at hx; rw [hx]; exact hlong⟩
  slots {j _ _ _} hc := by simp [hj j] at hc
  migrating {w _ _} hc := by simp [hw w] at hc
  long {w _} hc := by simp [hw w] at hc

/-- What the validation of the next window establishes of its extent (R168 orders 2 and 3). -/
theorem extent_of_badWindow {granules i : Nat} {extents : List Extent} {ranges : List TakenRange} {x : ImageWindow}
    {rest : List ImageWindow} (hb : badWindow granules i extents ranges (x :: rest) = none) :
    x.base + x.len ≤ granules ∧ ∀ e ∈ extents, e.overlaps x.extent = false := by
  unfold badWindow at hb
  split at hb
  · rename_i hv
    simp only [windowValid, Bool.and_eq_true, decide_eq_true_eq, Bool.not_eq_true', List.any_eq_false] at hv
    exact ⟨hv.1.2, fun e he => by simpa using hv.2 e he⟩
  · simp at hb

/-- An extent in the pool that overlaps no home can be allocated while no slot is busy (R28, R30). -/
theorem Lawful.allocatable {e : Estate} (h : e.Lawful) (hj : ∀ j, e.claims j = .idle) {x : Extent} (hx : 1 ≤ x.len)
    (hin : x.base + x.len ≤ granulesOfCode e.poolCode) (hw : ∀ w t, e.tenures w = some t → t.2.overlaps x = false) :
    ∃ free, allocateExplicit x e.freeList = some free := by
  refine allocateExplicit_of_cover h.ordered hx fun g h1 h2 => ?_
  have hhomes : ∀ w, coverCount (homesOf (e.tenures w)) g = 0 := by
    intro w
    cases ht : e.tenures w with
    | none => rfl
    | some t =>
      have hover := hw w t ht
      simp only [Extent.overlaps, Bool.and_eq_false_iff, decide_eq_false_iff_not] at hover
      change coverCount [t.2] g = 0
      rw [coverCount_cons, if_neg (by omega), coverCount_nil]
  have hcover := h.partition g
  simp only [cover, hhomes, hj, Claim.spares, coverCount_nil, Finset.sum_const_zero, Nat.add_zero] at hcover
  rw [hcover, if_pos (by omega)]
  exact Nat.one_pos

/-- A valid image is installed on free extents: `extents` are those of the windows before it (R168, R169). -/
theorem Lawful.install {ws : List ImageWindow} {e : Estate} {i : Nat} {extents : List Extent}
    {ranges : List TakenRange} (h : e.Lawful) (hj : ∀ j, e.claims j = .idle)
    (hfree : ∀ w : WindowId, i ≤ w.val → e.tenures w = none)
    (hhomes : ∀ w t, e.tenures w = some t → t.2 ∈ extents) (hi : i + ws.length ≤ 64)
    (hv : badWindow (granulesOfCode e.poolCode) i extents ranges ws = none) : (e.install i ws).Lawful := by
  induction ws generalizing e i extents ranges with
  | nil => exact h
  | cons x rest ih =>
    obtain ⟨hlen, taken, -, hrest⟩ := badWindow_cons hv
    obtain ⟨hin, hclear⟩ := extent_of_badWindow hv
    rw [List.length_cons] at hi
    obtain ⟨free, ha⟩ := h.allocatable hj (x := x.extent) hlen hin fun w t hw => hclear _ (hhomes w t hw)
    have hw : (Fin.ofNat 64 i : WindowId).val = i := Nat.mod_eq_of_lt (by omega)
    rw [Estate.install, ha, Option.getD_some]
    generalize (Fin.ofNat 64 i : WindowId) = w at hw
    have hmade := h.made (hfree w hw.ge) hlen ⟨allocateExplicit_cover ha, allocateExplicit_ordered ha⟩
    refine ih hmade hj (fun y hy => ?_) (fun y t hy => ?_) (by omega) hrest
    · have hne : y ≠ w := fun hyw => by rw [hyw] at hy; omega
      exact (tenures_withTenure_ne _ hne _).trans (hfree y (by omega))
    · by_cases hyw : y = w
      · subst hyw
        obtain rfl := Option.some.inj ((tenures_withTenure_same ..).symm.trans hy)
        exact List.mem_cons_self ..
      · exact List.mem_cons_of_mem _ (hhomes y t ((tenures_withTenure_ne _ hyw _).symm.trans hy))

theorem lawful_reset : State.reset.estate.Lawful := ((owned_iff _).1 owned_reset).1

/-- Every change keeps the law of R28. -/
theorem Change.lawful {e f : Estate} (hc : Change e f) (h : e.Lawful) (hb : e.Clean) : f.Lawful := by
  cases hc with
  | retired hw => exact h.retired hw
  | restated _ hw hst hst' => exact h.restated hw hst hst'
  | made _ hw hx ha => exact h.made hw hx ha
  | migrated hw hj ha hx => exact h.migrated hw hj ha hx
  | finished hj => exact h.finished hj
  | switched hj => exact h.switched hj
  | acknowledged hj => exact h.acknowledged hj
  | took => exact h.congr rfl rfl rfl rfl
  | closed => exact h.congr rfl rfl rfl rfl
  | ended => exact h.congr rfl rfl rfl rfl
  | abandoned => exact h.congr rfl rfl rfl rfl
  | pinReset => exact lawful_reset.congr rfl rfl rfl rfl
  | powerOn => exact lawful_reset
  | released hr =>
    have hboot := hb.held hr
    exact lawful_of_empty (hb.free hboot) (hb.idle hboot) rfl
  | installed hboot _ hlen hv =>
    have hfree := hb.free hboot
    exact (h.install (hb.idle hboot) (fun w _ => hfree w) (fun w t hw => by simp [hfree w] at hw) (by omega)
      hv).congr rfl rfl rfl rfl

end Estate

end Sys2Proof.Machine
end

section
/-! SUPPORT. What leaves the estate as it was. -/

namespace Sys2Proof.Machine

section EstateFrames

variable (s : State)

/-! ### Single updates -/

@[simp] theorem setMap_estate (n : NodeId) (m : List WindowId) : (s.setMap n m).estate = s.estate := rfl
@[simp] theorem setPort_estate (n : NodeId) (p : Port) : (s.setPort n p).estate = s.estate := rfl
@[simp] theorem setLink_estate (n : NodeId) (l : LinkState) : (s.setLink n l).estate = s.estate := rfl
@[simp] theorem setTag_estate (n : NodeId) (t : Tag) (e : Option TagEntry) : (s.setTag n t e).estate = s.estate := rfl
@[simp] theorem setCapture_estate (n : NodeId) (c : Option Capture) : (s.setCapture n c).estate = s.estate := rfl
@[simp] theorem setPhase_estate (p : EnginePhase) : (s.setPhase p).estate = s.estate := rfl
@[simp] theorem setReasons_estate (i : Fin 73) (r : BitVec 6) : (s.setReasons i r).estate = s.estate := rfl
@[simp] theorem raise_estate (f : Flag) : (s.raise f).estate = s.estate := rfl
@[simp] theorem clearOutbound_estate (n : NodeId) : (s.clearOutbound n).estate = s.estate := rfl
@[simp] theorem abandonTags_estate (n : NodeId) : (s.abandonTags n).estate = s.estate := rfl
@[simp] theorem updateStanding_estate (n : NodeId) : (s.updateStanding n).estate = s.estate := rfl

theorem setWindow_estate (w : WindowId) (r : WindowRecord) :
    (s.setWindow w r).estate = s.estate.withTenure w (r.life.map Live.tenure) := by
  refine (Estate.mk.injEq ..).mpr ⟨funext fun x => ?_, rfl, rfl, rfl, rfl, rfl, rfl, rfl⟩
  rw [window_setWindow, Function.update_apply]
  by_cases hx : x = w
  · rw [if_pos hx.symm, if_pos hx]
  · rw [if_neg (Ne.symm hx), if_neg hx]
    rfl

theorem updateLive_withTenure (w : WindowId) (f : Live → Live) :
    (s.updateLive w f).estate = s.estate.withTenure w ((s.window w).life.map fun v => (f v).tenure) := by
  unfold State.updateLive
  split
  · rename_i h
    rw [h]
    exact (Estate.withTenure_self (by simp [State.estate, h])).symm
  · rename_i h
    rw [setWindow_estate, h]
    rfl

theorem setSlot_withClaim (j : SlotId) (t : Slot) : (s.setSlot j t).estate = s.estate.withClaim j t.claim := by
  refine (Estate.mk.injEq ..).mpr ⟨rfl, funext fun k => ?_, rfl, rfl, rfl, rfl, rfl, rfl⟩
  rw [slot_setSlot, Function.update_apply]
  by_cases hk : k = j
  · rw [if_pos hk.symm, if_pos hk]
  · rw [if_neg (Ne.symm hk), if_neg hk]
    rfl

/-- A change of a window that keeps its state and its home keeps the estate. -/
theorem updateLive_estate {w : WindowId} {f : Live → Live} (hf : ∀ v, (f v).tenure = v.tenure) :
    (s.updateLive w f).estate = s.estate := by
  rw [updateLive_withTenure]
  exact Estate.withTenure_self (by simp only [hf]; rfl)

/-- A job slot that keeps its claim keeps the estate. -/
theorem setSlot_estate {j : SlotId} {t : Slot} (h : t.claim = (s.slot j).claim) :
    (s.setSlot j t).estate = s.estate := by
  rw [setSlot_withClaim]
  exact Estate.withClaim_self h

theorem foldl_estate {α : Type} {f : State → α → State} (hf : ∀ (s : State) (a : α), (f s a).estate = s.estate)
    (l : List α) (s : State) : (l.foldl f s).estate = s.estate := by
  induction l generalizing s with
  | nil => rfl
  | cons a l ih => exact (ih _).trans (hf s a)

/-- What touches nothing beyond requests and no window's shape leaves the estate as it was. -/
theorem estate_of_shape {s t : State} (hr : t.beyondRequests = s.beyondRequests) (hs : ∀ x, t.shape x = s.shape x) :
    t.estate = s.estate := by
  have htenure : ∀ (u : State) (x : WindowId), u.estate.tenures x = (u.shape x).2.map Live.tenure := by
    intro u x
    simp only [State.estate, State.shape, Option.map_map]
    rfl
  have htaken : t.taken = s.taken := (congrArg State.taken hr :)
  refine (Estate.mk.injEq ..).mpr ⟨funext fun x => ?_, (congrArg (fun u : State => fun j => (u.slot j).claim) hr :),
    (congrArg State.freeList hr :), (congrArg State.poolCode hr :), (congrArg State.resetHeld hr :),
    (congrArg State.booting hr :), congrArg Option.isSome htaken, (congrArg State.pool hr :)⟩
  change t.estate.tenures x = s.estate.tenures x
  rw [htenure, htenure, hs]

/-! ### Answers, requests and replay -/

@[simp] theorem updateGrant_estate (w : WindowId) (n : NodeId) (f : GrantRecord → GrantRecord) :
    (s.updateGrant w n f).estate = s.estate := updateLive_estate s fun _ => rfl

@[simp] theorem lowerExecuting_estate (w : WindowId) (n : NodeId) : (s.lowerExecuting w n).estate = s.estate :=
  updateLive_estate s fun _ => rfl

@[simp] theorem lowerHeld_estate (w : WindowId) (n : NodeId) : (s.lowerHeld w n).estate = s.estate :=
  updateLive_estate s fun _ => rfl

@[simp] theorem send_estate (n : NodeId) (m : Message) : (s.send n m).estate = s.estate := by
  unfold State.send
  split <;> rfl

@[simp] theorem captureFault_estate (n : NodeId) (c : Capture) : (s.captureFault n c).estate = s.estate := by
  unfold State.captureFault
  split <;> rfl

@[simp] theorem sendFault_estate (n : NodeId) (c : Capture) : (s.sendFault n c).estate = s.estate := by
  simp [State.sendFault]

@[simp] theorem faultTag_estate (n : NodeId) (t : Tag) (r : FaultReason) : (s.faultTag n t r).estate = s.estate := by
  unfold State.faultTag
  split <;> simp

@[simp] theorem faultHeld_estate (n : NodeId) (hit : HoldEntry → Bool) (r : FaultReason) :
    (s.faultHeld n hit r).estate = s.estate :=
  estate_of_shape (beyondRequests_of_answers (faultHeld_answers ..)) (shape_faultHeld s n hit r)

@[simp] theorem settle_estate (n : NodeId) (t : Tag) (q : Request) : (s.settle n t q).estate = s.estate :=
  estate_of_shape (settle_requests ..) (shape_settle s n t q)

@[simp] theorem replay_estate (n : NodeId) : (s.replay n).state.estate = s.estate :=
  estate_of_shape (replay_requests ..) (shape_replay s n)

@[simp] theorem replayWindow_estate (w : WindowId) : (s.replayWindow w).state.estate = s.estate :=
  estate_of_shape (replayWindow_requests ..) (shape_replayWindow s w)

@[simp] theorem arrive_estate (n : NodeId) (t : Tag) (q : Request) : (s.arrive n t q).estate = s.estate := by
  unfold State.arrive
  split
  · rfl
  · rfl
  · simp
  · simp
  · split_ifs <;> simp

@[simp] theorem malformed_estate (n : NodeId) : (s.malformed n).estate = s.estate := by
  unfold State.malformed
  split <;> rfl

@[simp] theorem expireHolds_estate (n : NodeId) (t : Nat) : (s.expireHolds n t).estate = s.estate := by
  simp [State.expireHolds]

/-! ### Links and grants -/

@[simp] theorem endFenceDrain_estate (n : NodeId) : (s.endFenceDrain n).estate = s.estate := by
  unfold State.endFenceDrain
  split <;> rfl

@[simp] theorem enterFencing_estate (n : NodeId) : (s.enterFencing n).estate = s.estate := by
  simp [State.enterFencing]

@[simp] theorem policyFence_estate (n : NodeId) : (s.policyFence n).estate = s.estate := by
  unfold State.policyFence
  split <;> simp

@[simp] theorem dropHolds_estate (n : NodeId) : (s.dropHolds n).estate = s.estate :=
  foldl_estate (f := fun s (e : HoldEntry) => s.lowerHeld e.window n) (fun s e => lowerHeld_estate s e.window n)
    (s.hold n) (s.setHold n [])

@[simp] theorem recordIdentity_estate (n : NodeId) (identity : Word) :
    (s.recordIdentity n identity).estate = s.estate := by
  simp only [State.recordIdentity, setPort_estate]
  split
  · rfl
  · split <;> rfl

@[simp] theorem firstHello_estate (n : NodeId) (identity : Word) : (s.firstHello n identity).estate = s.estate := by
  simp [State.firstHello]

@[simp] theorem decidePort_estate (n : NodeId) : (s.decidePort n).estate = s.estate := by
  unfold State.decidePort
  split
  · simp only []
    split <;> simp
  · rfl

@[simp] theorem delist_estate (w : WindowId) (n : NodeId) : (s.delist w n).estate = s.estate := by
  simp [State.delist]

@[simp] theorem addGrant_estate (w : WindowId) (n : NodeId) (base : Nat) (r : Rights) :
    (s.addGrant w n base r).estate = s.estate :=
  updateLive_estate (s.setMap n _) fun _ => rfl

@[simp] theorem sendNotice_estate (w : WindowId) (v : Live) (n : NodeId) (g : GrantRecord) :
    (s.sendNotice w v n g).estate = s.estate := by
  simp [State.sendNotice]

/-! ### The Copy Engine and the records -/

@[simp] theorem readOrWait_estate (j : SlotId) (job : Job) : (s.readOrWait j job).estate = s.estate := by
  unfold State.readOrWait
  split <;> rfl

/-- A turn marks its chunk, which no claim tells (R133). -/
@[simp] theorem startTurn_estate : s.startTurn.estate = s.estate := by
  unfold State.startTurn
  split
  · rfl
  · rename_i j _
    split
    · rename_i job mark hj
      rw [readOrWait_estate]
      exact setSlot_estate s (t := .copying job true) (by rw [hj]; rfl)
    all_goals rfl

@[simp] theorem endTurn_estate : s.endTurn.estate = s.estate := by
  unfold State.endTurn
  split <;> simp

@[simp] theorem endWaiting_estate (j : SlotId) : (s.endWaiting j).estate = s.estate := by
  unfold State.endWaiting
  split <;> simp

@[simp] theorem resumeWaiting_estate (j : SlotId) : (s.resumeWaiting j).estate = s.estate := by
  unfold State.resumeWaiting
  split
  · split
    · simp
    all_goals rfl
  · rfl

@[simp] theorem tellDirectory_estate (w : WindowId) : (s.tellDirectory w).estate = s.estate := by
  unfold State.tellDirectory
  split
  · rfl
  · split
    · exact updateLive_estate s fun _ => rfl
    · rfl

@[simp] theorem completeTag_estate (t : Transaction) (tag : Tag) : (s.completeTag t tag).estate = s.estate := by
  unfold State.completeTag
  split <;> simp

@[simp] theorem closeRecord_estate (t : Transaction) : (s.closeRecord t).estate = s.estate := by
  rw [State.closeRecord, lowerExecuting_estate]
  change (s.answerTag t).estate = s.estate
  unfold State.answerTag
  split <;> simp

/-! ### The port -/

@[simp] theorem writeParam_estate (k : Fin 8) (value : Word) : (s.writeParam k value).estate = s.estate := by
  unfold State.writeParam
  split <;> rfl

@[simp] theorem tick_estate : s.tick.estate = s.estate := by
  unfold State.tick
  split <;> rfl

theorem reach_estate {s u : State} {t : Nat} (h : s.reach t = some u) : u.estate = s.estate := by
  unfold State.reach at h
  split at h
  · exact Option.some.inj h ▸ rfl
  · simp at h

end EstateFrames

end Sys2Proof.Machine
end

section
/-! SUPPORT. The operations of the part that change the estate, each by the changes it makes. -/

namespace Sys2Proof.Machine

/-! ### Removal, unlisting, retirement -/

section Withdrawals

variable (s : State)

theorem retireIfEmpty_reaches (w : WindowId) : s.Reaches (s.retireIfEmpty w) := by
  unfold State.retireIfEmpty
  split
  · exact .refl s
  · rename_i v hv
    split
    · rename_i hc
      exact .single (.retired (tenures_estate.2 ⟨v, hv, hc.1, rfl⟩)) (setWindow_estate (s.release v.home) ..)
    · exact .refl s

theorem removeIfDrained_reaches (w : WindowId) (n : NodeId) : s.Reaches (s.removeIfDrained w n) := by
  unfold State.removeIfDrained
  split
  · exact .refl s
  · split
    · exact (retireIfEmpty_reaches _ w).of_eq_left (updateLive_estate s fun _ => rfl)
    · exact .refl s

theorem unlist_reaches (w : WindowId) (n : NodeId) : s.Reaches (s.unlist w n) :=
  (removeIfDrained_reaches _ w n).of_eq_left ((faultHeld_estate ..).trans (delist_estate ..))

theorem withdraw_reaches (w : WindowId) (v : Live) (n : NodeId) (g : GrantRecord) : s.Reaches (s.withdraw w v n g) := by
  unfold State.withdraw
  split
  · exact .of_eq (sendNotice_estate ..)
  · exact unlist_reaches ..

theorem retireGrant_reaches (w : WindowId) (n : NodeId) : s.Reaches (State.retireGrant w s n) := by
  unfold State.retireGrant
  split
  · exact .refl s
  · split
    · exact withdraw_reaches ..
    all_goals exact .refl s

theorem acknowledge_reaches (n : NodeId) (number : Byte) : s.Reaches (s.acknowledge n number) := by
  unfold State.acknowledge
  split
  · exact .refl s
  · split
    · exact unlist_reaches ..
    · exact .of_eq (raise_estate ..)

theorem forceRemoval_reaches (w : WindowId) (n : NodeId) : s.Reaches (s.forceRemoval w n) :=
  (unlist_reaches s w n).then_eq (policyFence_estate ..)

theorem dropNode_reaches (n : NodeId) : s.Reaches (s.dropNode n) :=
  (foldl_reaches (fun s (x : Byte × WindowId) => unlist_reaches s x.2 n) _ _).of_eq_left
    (by rw [dropHolds_estate, abandonTags_estate, clearOutbound_estate])

theorem hello_reaches (n : NodeId) (identity : Word) : s.Reaches (s.hello n identity) := by
  have hrestart : s.Reaches (s.restart n identity) := (dropNode_reaches s n).then_eq (by simp [State.restart])
  unfold State.hello
  split
  · exact .refl s
  · exact .of_eq (firstHello_estate ..)
  all_goals exact hrestart

theorem deliver_reaches (n : NodeId) (m : Inbound) : s.Reaches (s.deliver n m) := by
  cases m with
  | hello identity => exact hello_reaches s n identity
  | read t addr len => exact .of_eq (arrive_estate ..)
  | write t addr len data => exact .of_eq (arrive_estate ..)
  | revokeAck number => exact acknowledge_reaches s n number

end Withdrawals

/-- A window that no job moves takes another state that names no job; what else a window holds is not of the estate. -/
theorem restate_reaches {s : State} {w : WindowId} {v : Live} (hv : (s.window w).life = some v)
    (hst : v.state.unmoved) {f : Live → Live} (hf : (f v).state.unmoved) (hhome : (f v).home = v.home) :
    s.Reaches (s.updateLive w f) := by
  refine .single (.restated (f v).state (tenures_estate.2 ⟨v, hv, rfl, rfl⟩) hst hf) ?_
  rw [updateLive_withTenure, hv, ← hhome]
  rfl

/-- A retirement releases at most the home of its window (R125, R126). -/
theorem retire_reaches {s : State} {w : WindowId} {v : Live} (hv : (s.window w).life = some v)
    (hst : v.state.unmoved) : s.Reaches (s.retire w) := by
  have hbegun : s.Reaches (s.updateLive w fun v => { v with state := .retiring, quietPending := false }) :=
    restate_reaches hv hst (fun j => by simp) rfl
  have hfaulted := hbegun.then_eq (foldl_estate (f := fun s n => s.faultHeld n (fun e => e.window == w) .windowRetired)
    (fun s n => faultHeld_estate s n (fun e => e.window == w) .windowRetired) allNodes _)
  have hwithdrawn := hfaulted.trans (foldl_reaches (f := State.retireGrant w) (fun s n => retireGrant_reaches s w n)
    allNodes _)
  exact hwithdrawn.trans (retireIfEmpty_reaches _ w)

/-! ### Drains, aborts and the switch -/

section Jobs

variable {s : State} {j : SlotId} {job : Job}

theorem tenure_endMigration (j : SlotId) (v : Live) : (v.endMigration j).tenure = Tenure.endMigration j v.tenure := by
  unfold Live.endMigration Tenure.endMigration
  by_cases h : v.state = .migrating j
  · rw [if_pos h]
    exact (if_pos h).symm
  · rw [if_neg h]
    exact (if_neg h).symm

/-- A busy slot that reaches FINISHED releases its spare extent (R142, R145). -/
theorem finish_reaches {home spare : Extent} (hj : (s.slot j).claim = .busy job.window home spare) (o : JobOutcome)
    (f : Flag) : s.Reaches (s.finish j job o spare f) := by
  refine .single (.finished hj) ?_
  rw [State.finish, raise_estate, updateLive_withTenure, setSlot_withClaim]
  have htenure : ((s.window job.window).life.map fun v => (v.endMigration j).tenure) =
      (s.estate.tenures job.window).map (Tenure.endMigration j) := by
    simp only [State.estate, Option.map_map]
    exact congrArg (fun g => (s.window job.window).life.map g) (funext fun v => tenure_endMigration j v)
  rw [← htenure]
  rfl

variable (s j)

theorem lookDrain_reaches : s.Reaches (s.lookDrain j) := by
  unfold State.lookDrain
  split
  · rename_i job hj
    split
    · exact finish_reaches (by rw [hj]; rfl) ..
    · exact .refl s
  · rename_i job reason hj
    split
    · exact finish_reaches (by rw [hj]; rfl) ..
    · exact .refl s
  all_goals exact .refl s

/-- The entry to ABORTING changes the estate by its drain alone (R144). -/
theorem enterAborting_reaches (r : AbortReason) : s.Reaches (s.enterAborting j r) := by
  unfold State.enterAborting
  split
  · rename_i job mark hj
    have hturned : ((s.setSlot j (.aborting job r)).endWaiting j).estate = s.estate :=
      (endWaiting_estate ..).trans (setSlot_estate s (by rw [hj]; rfl))
    refine (lookDrain_reaches _ j).of_eq_left ?_
    split
    · exact (replayWindow_estate ..).trans hturned
    · exact hturned
  all_goals exact .refl s

theorem copyFailed_reaches (r : AbortReason) : s.Reaches (s.copyFailed j r) :=
  ((enterAborting_reaches (s.setPhase .idle) j r).of_eq_left (setPhase_estate ..)).then_eq (endTurn_estate _)

theorem endAbortedTurn_reaches : s.Reaches (s.endAbortedTurn j) :=
  (lookDrain_reaches s.endTurn j).of_eq_left (endTurn_estate s)

theorem mirrorFailed_reaches (w : WindowId) : s.Reaches (s.mirrorFailed w) := by
  unfold State.mirrorFailed
  split
  · exact .refl s
  · split
    · exact enterAborting_reaches ..
    all_goals exact .refl s

theorem tellEngine_reaches (w : WindowId) : s.Reaches (s.tellEngine w) := by
  unfold State.tellEngine
  split
  · exact .refl s
  · split
    · exact (lookDrain_reaches _ _).of_eq_left (resumeWaiting_estate ..)
    all_goals exact .refl s

variable {s j}

/-- The switch exchanges the two extents of a job, then looks at the drain (R141). -/
theorem switch_reaches (hj : (s.slot j).claim = .busy job.window job.source job.target) :
    s.Reaches (s.switch j job) := by
  have hswitched : s.Reaches ((s.updateLive job.window fun v => { v with home := job.target }).setSlot j
      (.drainingOld job)) := by
    refine .single (.switched hj) ?_
    rw [setSlot_withClaim, updateLive_withTenure]
    simp only [State.estate, Option.map_map]
    rfl
  exact hswitched.trans (lookDrain_reaches _ j)

theorem afterChunk_reaches (hj : (s.slot j).claim = .busy job.window job.source job.target) :
    s.Reaches (s.afterChunk j job) := by
  unfold State.afterChunk
  split
  · exact switch_reaches hj
  · exact .of_eq (setSlot_estate s (by rw [hj]; rfl))

theorem copyReadEnded_reaches (j : SlotId) (r : OpEnd) : r.state.Reaches (State.copyReadEnded j r) := by
  unfold State.copyReadEnded
  split
  · split
    · exact copyFailed_reaches ..
    · exact .of_eq rfl
  all_goals exact endAbortedTurn_reaches ..

theorem copyWriteEnded_reaches (j : SlotId) (r : OpEnd) : r.state.Reaches (State.copyWriteEnded j r) := by
  unfold State.copyWriteEnded
  split
  · rename_i job mark hj
    split
    · exact copyFailed_reaches ..
    · have hchunk : (r.state.setPhase .idle).Reaches
          ((r.state.setPhase .idle).afterChunk j { job with cursor := job.cursor + chunkBytes }) :=
        afterChunk_reaches (congrArg Slot.claim hj)
      exact (hchunk.of_eq_left (setPhase_estate ..)).then_eq ((endTurn_estate _).trans (replayWindow_estate ..))
  all_goals exact endAbortedTurn_reaches ..

end Jobs

/-! ### The end of a pool operation -/

theorem endOp_reaches (s : State) (c : ChannelId) (op : PoolOp) (rest : List PoolOp) (dramFault : Bool) :
    s.Reaches (s.endOp c op rest dramFault).state :=
  .single (.ended op (s.endOp c op rest dramFault).failed) rfl

theorem endTransaction_reaches (s : State) (t : Transaction) : s.Reaches (s.endTransaction t) := by
  rw [endTransaction_eq]
  have hremoved := removeIfDrained_reaches ((s.closeRecord t).tellDirectory t.window) t.window t.node
  exact ((hremoved.of_eq_left ((tellDirectory_estate ..).trans (closeRecord_estate ..))).then_eq
    (endFenceDrain_estate ..)).trans (tellEngine_reaches ..)

theorem operationEnded_reaches (s : State) (t : Transaction) (role : Role) (r : OpEnd) :
    s.Reaches (s.operationEnded t role r) := by
  have hnoted : s.Reaches (s.noteOp t role r.failed r.bytes) := .of_eq rfl
  have htold : s.Reaches (if r.failed && t.mirrored && role == .target then
      (s.noteOp t role r.failed r.bytes).mirrorFailed t.window else s.noteOp t role r.failed r.bytes) := by
    split
    · exact hnoted.trans (mirrorFailed_reaches ..)
    · exact hnoted
  unfold State.operationEnded
  simp only []
  split
  · exact htold
  · exact htold.trans (endTransaction_reaches ..)

end Sys2Proof.Machine
end

section
/-! SUPPORT. The changes each command, event and step makes in the estate, and the invariants they keep. -/

namespace Sys2Proof.Machine

/-! ### The port, device reset and the installation -/

section Ports

variable (s : State)

/-- A command is taken when BUSY is clear, so not while the part boots (R151, R153). -/
theorem writeCommand_reaches (code : Word) : s.Reaches (s.writeCommand code) := by
  unfold State.writeCommand
  split
  · exact .of_eq rfl
  · rename_i hb
    refine .single (.took ?_) rfl
    change s.booting = false
    simp_all [State.busy]

theorem abandonCommand_reaches : s.Reaches s.abandonCommand := by
  unfold State.abandonCommand
  split
  · exact .refl s
  · exact .single .closed rfl

theorem writeControl_reaches (value : Word) : s.Reaches (s.writeControl value) := by
  unfold State.writeControl
  split
  · exact (abandonCommand_reaches s).then_eq rfl
  · exact .of_eq rfl

theorem writeSlot_reaches (i : Fin 16) (value : Word) : s.Reaches (s.writeSlot i value) := by
  unfold State.writeSlot
  split
  · exact writeControl_reaches ..
  · exact writeCommand_reaches ..
  · exact .of_eq (writeParam_estate ..)
  · exact .of_eq (writeParam_estate ..)
  · exact .of_eq (writeParam_estate ..)
  · exact .of_eq (writeParam_estate ..)
  · exact .of_eq (writeParam_estate ..)
  · exact .of_eq (writeParam_estate ..)
  · exact .of_eq (writeParam_estate ..)
  · exact .of_eq (writeParam_estate ..)
  · exact .refl s

theorem abandonOps_reaches (ops : List PoolOp) : s.Reaches { s with pool := ops.foldl Pool.abandon s.pool } := by
  induction ops generalizing s with
  | nil => exact .refl s
  | cons op ops ih => exact .trans (.single (.abandoned op) rfl) (ih { s with pool := s.pool.abandon op })

theorem deviceReset_reaches (cause : ResetCause) : s.Reaches (s.deviceReset cause) := by
  cases cause with
  | pin => exact (abandonOps_reaches s s.opsInProgress).trans (.single .pinReset rfl)
  | powerOn => exact .single .powerOn rfl

theorem installWindow_estate (i : Nat) (x : ImageWindow) :
    (s.installWindow i x).estate =
      (s.estate.withFree ((allocateExplicit x.extent s.freeList).getD s.freeList)).withTenure (Fin.ofNat 64 i)
        (some (.active, x.extent)) :=
  (foldl_estate (f := State.installGrant (Fin.ofNat 64 i))
    (fun s g => addGrant_estate s _ (Fin.ofNat 4 g.node) g.base (imageRights g.rights)) x.grants _).trans
    (setWindow_estate ..)

theorem installWindows_estate (i : Nat) (ws : List ImageWindow) :
    (s.installWindows i ws).estate = s.estate.install i ws := by
  induction ws generalizing s i with
  | nil => rfl
  | cons x rest ih =>
    rw [State.installWindows, ih, installWindow_estate]
    rfl

theorem endBoot_estate (status : BootStatus) (mask : BitVec 4) (f : Flag) :
    (s.endBoot status mask f).estate = { s.estate with booting := false } := by
  have hports := foldl_estate (f := State.decidePort) decidePort_estate allNodes { s with maskInForce := mask }
  unfold State.endBoot
  generalize allNodes.foldl State.decidePort { s with maskInForce := mask } = t at hports ⊢
  exact congrArg (fun e : Estate => { e with booting := false }) hports

variable {s}

/-- The installation makes the windows of a valid image, or none (R169). -/
theorem install_reaches (hb : s.booting = true) (hr : s.resetHeld = false) (eeprom : List Byte) :
    s.Reaches (s.install eeprom) := by
  unfold State.install
  split
  · rename_i m hm
    obtain ⟨hlen, hv⟩ := bootLoad_ok hm
    refine .single (.installed hb hr hlen hv) ?_
    rw [endBoot_estate, State.installImage, installWindows_estate]
    rfl
  · refine .single (.installed (ws := []) hb hr (Nat.zero_le _) rfl) ?_
    rw [endBoot_estate]
    rfl

end Ports

/-! ### Commands -/

section Commands

variable (s : State) (p : Vector Word 8)

/-- A window that passes the window check is in a state that takes the command (R7). -/
theorem takenIn_of_windowCheck {s : State} {p : Vector Word 8} {c : Cmd} {w : WindowId} {v : Live}
    (hc : s.windowCheck c p = .passed w v) : Cmd.takenIn c v.state = true := by
  unfold State.windowCheck at hc
  split at hc
  · split at hc
    · simp at hc
    · simp only at hc
      split at hc
      · simp at hc
      · split at hc
        · simp at hc
        · split at hc
          · obtain ⟨-, rfl⟩ := WindowCheck.passed.inj hc
            assumption
          · simp at hc
  · simp at hc

/-- SUSPEND, RESUME and RETIRE find the window in a state that names no job (R7). -/
theorem unmoved_of_takenIn {c : Cmd} (hc : c = .suspend ∨ c = .resume ∨ c = .retire) {st : LiveState}
    (h : Cmd.takenIn c st = true) : st.unmoved := by
  rintro j rfl
  rcases hc with rfl | rfl | rfl <;> simp [Cmd.takenIn] at h

theorem completeCreateWindow_reaches (ht : s.taken.isSome = true) : s.Reaches (completeCreateWindow p s).state := by
  unfold completeCreateWindow
  split
  · exact .refl s
  · rename_i hlen
    split
    · exact .refl s
    · split
      · exact .refl s
      · split
        · exact .refl s
        · rename_i w hw
          have hfree : (s.window w).life = none := by
            simpa using List.find?_some (p := fun w => (s.window w).life.isNone) hw
          split
          · split <;> exact .refl s
          · rename_i x hx
            obtain ⟨ha, hx⟩ := allocate_allocated (x := x.1) (free := x.2) hx
            exact .single (.made ht (congrArg (Option.map Live.tenure) hfree) (by omega) ha) (setWindow_estate ..)

theorem completeGrant_reaches : s.Reaches (completeGrant p s).state := by
  unfold completeGrant
  split
  · exact .refl s
  · split
    · exact .refl s
    · exact .refl s
    · split_ifs
      · exact .refl s
      · exact .refl s
      · unfold placeGrant
        split
        · exact .refl s
        · split_ifs
          · exact .refl s
          · split
            · exact .refl s
            · exact .of_eq (addGrant_estate ..)

theorem completeSetRights_reaches : s.Reaches (completeSetRights p s).state := by
  unfold completeSetRights
  split
  · exact .refl s
  · split
    · exact .refl s
    · exact .refl s
    · split
      · exact .refl s
      · split_ifs
        · exact .refl s
        · exact .of_eq (updateGrant_estate ..)

theorem completeAdmitNode_reaches : s.Reaches (completeAdmitNode p s).state := by
  unfold completeAdmitNode
  split
  · exact .refl s
  · split_ifs
    · exact .of_eq ((send_estate ..).trans (setLink_estate ..))
    · exact .refl s

theorem completeFenceNode_reaches : s.Reaches (completeFenceNode p s).state := by
  unfold completeFenceNode
  split
  · exact .refl s
  · split_ifs
    · exact .of_eq (enterFencing_estate ..)
    · exact .refl s

theorem completeRevoke_reaches : s.Reaches (completeRevoke p s).state := by
  unfold completeRevoke
  split
  · exact .refl s
  · split
    · exact .refl s
    · split
      · exact .refl s
      · split
        · exact .refl s
        · exact .refl s
        · split_ifs <;> exact withdraw_reaches ..

theorem completeSuspend_reaches : s.Reaches (completeSuspend p s).state := by
  unfold completeSuspend
  split
  · exact .refl s
  · rename_i w v hc
    have hst : v.state.unmoved := unmoved_of_takenIn (.inl rfl) (takenIn_of_windowCheck hc)
    have hlive := Enduring.life_of_windowCheck hc
    have hset : s.Reaches (s.updateLive w fun v =>
        { v with state := .suspended, quietPending := decide (0 < v.executing) }) :=
      restate_reaches hlive hst (fun j => by simp) rfl
    simp only [carriedOut, State.suspend]
    split
    · exact hset.then_eq (raise_estate ..)
    · exact hset

/-- The end of a suspension changes the estate by the window's state alone: its passes act on requests (R110). -/
theorem resume_reaches {s : State} {w : WindowId} {v : Live} (hv : (s.window w).life = some v)
    (hst : v.state.unmoved) : s.Reaches (s.resume w).state := by
  have hset : s.Reaches (s.updateLive w fun v => { v with state := .active, quietPending := false }) :=
    restate_reaches hv hst (fun j => by simp) rfl
  unfold State.resume
  generalize (s.updateLive w fun v => { v with state := .active, quietPending := false }) = t at hset ⊢
  exact hset.then_eq (replayWindow_estate t w)

theorem completeResume_reaches : s.Reaches (completeResume p s).state := by
  unfold completeResume
  split
  · exact .refl s
  · rename_i w v hc
    have hst : v.state.unmoved := unmoved_of_takenIn (.inr (.inl rfl)) (takenIn_of_windowCheck hc)
    simp only [carriedOut]
    exact resume_reaches (Enduring.life_of_windowCheck hc) hst

theorem completeRetire_reaches : s.Reaches (completeRetire p s).state := by
  unfold completeRetire
  split
  · exact .refl s
  · rename_i w v hc
    have hst : v.state.unmoved := unmoved_of_takenIn (.inr (.inr rfl)) (takenIn_of_windowCheck hc)
    simp only [carriedOut]
    exact retire_reaches (Enduring.life_of_windowCheck hc) hst

/-- MIGRATE gives an IDLE slot its window and a target of the home's length (R147). -/
theorem migrate_reaches {s : State} {w : WindowId} {v : Live} {j : SlotId} {x : Extent} {free : List Extent}
    (hv : (s.window w).life = some v) (hst : v.state = .active) (hj : s.slot j = .idle)
    (ha : Allocated s.freeList x free) (hx : x.len = v.home.len) : s.Reaches (s.migrate w v j x free) := by
  have hbegun : s.Reaches ((({ s with freeList := free }).setSlot j (.copying
      { window := w, generation := (s.window w).generation, source := v.home, target := x, cursor := 0 }
      false)).updateLive w fun v => { v with state := .migrating j }) := by
    refine .single (.migrated (tenures_estate.2 ⟨v, hv, hst, rfl⟩) (congrArg Slot.claim hj) ha hx) ?_
    rw [updateLive_withTenure, setSlot_withClaim]
    exact congrArg (fun o => (((s.estate.withFree free).withClaim j (.busy w v.home x)).withTenure w o))
      (congrArg (Option.map fun v : Live => (LiveState.migrating j, v.home)) hv)
  simp only [State.migrate]
  split
  · exact hbegun.then_eq (startTurn_estate _)
  · exact hbegun

theorem completeMigrate_reaches : s.Reaches (completeMigrate p s).state := by
  unfold completeMigrate
  split
  · exact .refl s
  · rename_i w v hc
    have hv := Enduring.life_of_windowCheck hc
    have hst : v.state = .active := by simpa [Cmd.takenIn] using takenIn_of_windowCheck hc
    split
    · exact .refl s
    · split
      · exact .refl s
      · split
        · exact .refl s
        · rename_i j hj
          have hidle : s.slot j = .idle := by simpa using List.find?_some (p := fun j => s.slot j == .idle) hj
          split
          · split <;> exact .refl s
          · rename_i x hx
            obtain ⟨ha, hlen⟩ := allocate_allocated (x := x.1) (free := x.2) hx
            exact migrate_reaches hv hst hidle ha hlen

theorem completeAbortJob_reaches : s.Reaches (completeAbortJob p s).state := by
  unfold completeAbortJob
  split
  · exact .refl s
  · split
    · exact enterAborting_reaches ..
    all_goals exact .refl s

/-- An acknowledgement changes the estate when it makes a FINISHED slot IDLE (R146). -/
theorem ackSource_reaches (i : Fin 73) (named : BitVec 6) : s.Reaches (s.ackSource i named) := by
  have hslot : ∀ (u : State) (j : SlotId), u.Reaches (u.releaseSlot j) := by
    intro u j
    unfold State.releaseSlot
    split
    · rename_i job outcome hj
      exact .single (.acknowledged (congrArg Slot.claim hj)) (setSlot_withClaim ..)
    all_goals exact .refl u
  simp only [State.ackSource]
  split
  · exact (hslot _ _).of_eq_left (setReasons_estate ..)
  · exact .of_eq (setReasons_estate ..)

theorem completeAckAttention_reaches : s.Reaches (completeAckAttention p s).state := by
  unfold completeAckAttention
  split
  · simp only []
    split
    · exact .refl s
    · exact ackSource_reaches ..
  · exact .refl s

theorem completeSetTimers_reaches : s.Reaches (completeSetTimers p s).state := by
  unfold completeSetTimers
  split
  · exact .refl s
  · exact .of_eq rfl

theorem completeSetPolicy_reaches : s.Reaches (completeSetPolicy p s).state := by
  unfold completeSetPolicy
  split
  · exact .refl s
  · exact .of_eq rfl

theorem completeReleaseFaultCapture_reaches : s.Reaches (completeReleaseFaultCapture p s).state := by
  unfold completeReleaseFaultCapture
  split
  · exact .refl s
  · exact .of_eq (setCapture_estate ..)

/-- What a command that was taken changes at its completion event. -/
theorem complete_reaches (ht : s.taken.isSome = true) (c : Cmd) : s.Reaches (complete c p s).state := by
  cases c with
  | nop => exact .refl s
  | identify => exact .refl s
  | setTimers => exact completeSetTimers_reaches s p
  | setPolicy => exact completeSetPolicy_reaches s p
  | getAttention => exact .of_eq (congrArg State.estate (completeGetAttention_state p s))
  | ackAttention => exact completeAckAttention_reaches s p
  | createWindow => exact completeCreateWindow_reaches s p ht
  | queryWindow => exact .of_eq (congrArg State.estate (completeQueryWindow_state p s))
  | queryFree => exact .of_eq (congrArg State.estate (completeQueryFree_state p s))
  | grant => exact completeGrant_reaches s p
  | setRights => exact completeSetRights_reaches s p
  | queryGrant => exact .of_eq (congrArg State.estate (completeQueryGrant_state p s))
  | lookup => exact .of_eq (congrArg State.estate (completeLookup_state p s))
  | admitNode => exact completeAdmitNode_reaches s p
  | fenceNode => exact completeFenceNode_reaches s p
  | readFaultCapture => exact .of_eq (congrArg State.estate (completeReadFaultCapture_state p s))
  | releaseFaultCapture => exact completeReleaseFaultCapture_reaches s p
  | suspend => exact completeSuspend_reaches s p
  | resume => exact completeResume_reaches s p
  | revoke => exact completeRevoke_reaches s p
  | retire => exact completeRetire_reaches s p
  | migrate => exact completeMigrate_reaches s p
  | abortJob => exact completeAbortJob_reaches s p
  | queryJob => exact .of_eq (congrArg State.estate (completeQueryJob_state p s))

/-- A command completes: what it does to the records, then the slots (R152). -/
theorem runTaken_reaches {s : State} {t : Taken} (ht : s.taken = some t) : s.Reaches (runTaken t s).close := by
  have hrun : s.Reaches (runTaken t s).state := by
    unfold runTaken
    split
    · exact complete_reaches s t.params (by simp [ht]) _
    · exact .refl s
  exact hrun.trans (.single .closed rfl)

end Commands

/-! ### Events and steps -/

/-- An event changes what its effect outside reset changes, or nothing. -/
theorem event_reaches {s t : State} {f : State → State} (hf : s.resetHeld = false → s.Reaches (f s))
    (ht : event f s = .next t) : s.Reaches t := by
  unfold event at ht
  obtain rfl := Host.Outcome.next.inj ht
  split
  · exact .refl s
  · rename_i hr
    exact hf (by simpa using hr)

/-- What every event other than the taking of a command changes. -/
theorem exec_event_reaches {s t : State} {i : Instr} (hc : commandRow i = none) (ht : exec i s = .next t) :
    s.Reaches t := by
  cases i with
  | paramWrite slot value =>
    simp only [exec, execParamWrite] at ht
    refine event_reaches (fun _ => ?_) ht
    exact writeSlot_reaches ..
  | clearOverrun value =>
    simp only [exec, execClearOverrun] at ht
    refine event_reaches (fun _ => ?_) ht
    exact writeControl_reaches ..
  | clearCmdDone value =>
    simp only [exec, execClearCmdDone] at ht
    refine event_reaches (fun _ => ?_) ht
    exact writeControl_reaches ..
  | softReset value =>
    simp only [exec, execSoftReset] at ht
    refine event_reaches (fun _ => ?_) ht
    exact writeControl_reaches ..
  | deviceReset cause =>
    obtain rfl := Host.Outcome.next.inj ht
    exact deviceReset_reaches s cause
  | resetRelease psz booten =>
    obtain rfl := Host.Outcome.next.inj ht
    split
    · rename_i hr
      exact .single (.released hr psz) rfl
    · exact .refl s
  | bootInstall eeprom =>
    simp only [exec, execBootInstall] at ht
    refine event_reaches (fun hr => ?_) ht
    split
    · rename_i hb
      exact install_reaches hb hr eeprom
    · exact .refl s
  | linkUp n =>
    simp only [exec, execLinkUp] at ht
    refine event_reaches (fun _ => ?_) ht
    split
    · exact .of_eq (setLink_estate ..)
    · exact .refl s
  | linkDown n =>
    simp only [exec, execLinkDown] at ht
    refine event_reaches (fun _ => ?_) ht
    split
    · exact .refl s
    · exact (dropNode_reaches s n).then_eq ((setLink_estate ..).trans (raise_estate ..))
  | hello n identity =>
    simp only [exec, execHello] at ht
    refine event_reaches (fun _ => ?_) ht
    exact hello_reaches s n identity
  | read n u addr len =>
    simp only [exec, execRead] at ht
    refine event_reaches (fun _ => ?_) ht
    exact .of_eq (arrive_estate ..)
  | write n u addr len data =>
    simp only [exec, execWrite] at ht
    refine event_reaches (fun _ => ?_) ht
    split
    · exact .of_eq (arrive_estate ..)
    · exact .of_eq (malformed_estate ..)
  | revokeAck n number =>
    simp only [exec, execRevokeAck] at ht
    refine event_reaches (fun _ => ?_) ht
    exact acknowledge_reaches s n number
  | malformedMessage n bytes =>
    simp only [exec, execMalformedMessage] at ht
    refine event_reaches (fun _ => ?_) ht
    split
    · exact .of_eq (malformed_estate ..)
    · exact deliver_reaches ..
  | handToLinkLayer n =>
    simp only [exec, execHandToLinkLayer] at ht
    refine event_reaches (fun _ => ?_) ht
    split
    · exact .refl s
    · exact .of_eq (setPort_estate ..)
  | transactionOperationEnd c dramFault =>
    simp only [exec, execTransactionOperationEnd] at ht
    refine event_reaches (fun _ => ?_) ht
    split
    · exact .refl s
    · split
      · exact .refl s
      · split
        · exact .refl s
        · exact (endOp_reaches ..).trans (operationEnded_reaches ..)
  | holdExpiry n =>
    simp only [exec, execHoldExpiry] at ht
    refine event_reaches (fun _ => ?_) ht
    split
    · exact .refl s
    · split
      · exact .refl s
      · rename_i hu
        exact .of_eq ((expireHolds_estate ..).trans (reach_estate hu))
  | revokeDeadline w n =>
    simp only [exec, execRevokeDeadline] at ht
    refine event_reaches (fun _ => ?_) ht
    split
    · exact .refl s
    · split
      · exact .refl s
      · rename_i hu
        exact (forceRemoval_reaches _ w n).of_eq_left (reach_estate hu)
  | copyReadEnd dramFault =>
    simp only [exec, execCopyReadEnd] at ht
    refine event_reaches (fun _ => ?_) ht
    split
    · split
      · exact .refl s
      · exact (endOp_reaches ..).trans (copyReadEnded_reaches ..)
    all_goals exact .refl s
  | copyWriteEnd dramFault =>
    simp only [exec, execCopyWriteEnd] at ht
    refine event_reaches (fun _ => ?_) ht
    split
    · split
      · exact .refl s
      · exact (endOp_reaches ..).trans (copyWriteEnded_reaches ..)
    all_goals exact .refl s
  | pacingEnd =>
    simp only [exec, execPacingEnd] at ht
    refine event_reaches (fun _ => ?_) ht
    split
    · split
      · exact .refl s
      · rename_i hu
        exact .of_eq (((startTurn_estate _).trans (setPhase_estate ..)).trans (reach_estate hu))
    all_goals exact .refl s
  | commandCompletion =>
    simp only [exec, execCommandCompletion] at ht
    refine event_reaches (fun _ => ?_) ht
    split
    · exact .refl s
    · rename_i hk
      exact runTaken_reaches hk
  | _ => simp [commandRow] at hc

/-- What every command and event changes. -/
theorem exec_reaches {s t : State} {i : Instr} (ht : exec i s = .next t) : s.Reaches t := by
  cases hc : commandRow i with
  | some code =>
    rw [exec_of_commandRow hc] at ht
    refine event_reaches (fun _ => ?_) ht
    exact writeCommand_reaches s code
  | none => exact exec_event_reaches hc ht

/-- Every step changes the estate by changes a step can make. -/
theorem step_reaches {s t : State} (ht : step s = .next t) : s.Reaches t := by
  unfold step at ht
  split at ht
  · obtain rfl := Host.Outcome.next.inj ht
    exact .of_eq (tick_estate s)
  · exact (exec_reaches ht).of_eq_left rfl

/-! ### The invariants -/

/-- Settles O53: the changes of the estate that act on the pool keep it canonical, and no step does anything else to
it. -/
theorem stepKeepsPoolCanonical : Obligations.StepKeepsPoolCanonical :=
  fun _ _ hs ht => (step_reaches ht).keeps (P := fun e => e.pool.wf = true) Estate.Change.pool_wf hs

/-- Settles O56: the ownership law is a law of the estate, and each change a step can make in the estate keeps it. -/
theorem stepKeepsGranulesOwned : Obligations.StepKeepsGranulesOwned :=
  fun s t hs ht => (owned_iff t).2 ((step_reaches ht).keeps (P := fun e => e.Lawful ∧ e.Clean)
    (fun hc he => ⟨hc.lawful he.1 he.2, hc.clean he.2⟩) ((owned_iff s).1 hs))

end Sys2Proof.Machine
end

section
/-! SUPPORT. Grants: their making and their rights, and what QUERY GRANT and LOOKUP report (chapter 3). -/

namespace Sys2Proof.Machine

/-! ### Windows and parameters -/

theorem updateLive_of_life {s : State} {w : WindowId} {v : Live} (h : (s.window w).life = some v) (f : Live → Live) :
    s.updateLive w f = s.withLife w (f v) := by
  simp only [State.updateLive, h]
  rfl

/-- A named window in a state that takes the command passes the window check (R6, R7). -/
theorem windowCheck_passed {s : State} {p : Vector Word 8} {w : WindowId} {v : Live} (h : s.names p w v) {c : Cmd}
    (ht : Cmd.takenIn c v.state = true) : s.windowCheck c p = .passed w v := by
  rw [windowCheck_of_names h, if_pos ht]

/-- Parameters that name a node and rights are not out of range. -/
theorem inRange_of_named {p : Vector Word 8} {i : Fin 8} {k : Nat} {n : NodeId} {r : Rights}
    (hn : nodeParam p i = some n) (hr : Rights.ofCode k = some r) : ¬(3 < param p i ∨ (k ≠ 1 ∧ k ≠ 2)) := by
  rintro (hi | ⟨h1, h2⟩)
  · simp [nodeParam_of_gt hi] at hn
  · simp [rightsOfCode_none h1 h2] at hr

/-! ### Places in the two lists (R40) -/

theorem insertRef_append {baseOf : WindowId → Nat} {base : Nat} {below above : List WindowId}
    (hb : ∀ x ∈ below, baseOf x ≤ base) (ha : ∀ x ∈ above, base < baseOf x) (w : WindowId) :
    insertRef baseOf w base (below ++ above) = below ++ w :: above := by
  induction below with
  | nil =>
    cases above with
    | nil => rfl
    | cons x rest => exact if_pos (ha x (by simp))
  | cons x rest ih =>
    have hx : ¬base < baseOf x := not_lt.2 (hb x (by simp))
    simp only [List.cons_append, insertRef, if_neg hx, ih fun y hy => hb y (by simp [hy])]

theorem insertGrant_append {g : GrantRecord} {below above : List GrantRecord} (hb : ∀ x ∈ below, x.node < g.node)
    (ha : ∀ x ∈ above, g.node < x.node) : insertGrant g (below ++ above) = below ++ g :: above := by
  induction below with
  | nil =>
    cases above with
    | nil => rfl
    | cons x rest => exact if_pos (ha x (by simp))
  | cons x rest ih =>
    have hx : ¬g.node < x.node := (hb x (by simp)).asymm
    simp only [List.cons_append, insertGrant, if_neg hx, ih fun y hy => hb y (by simp [hy])]

/-! ### GRANT -/

theorem overlaps_iff {m : MapEntry} {base bytes : Nat} :
    m.overlaps base bytes = true ↔ m.grant.base < base + bytes ∧ base < m.grant.base + m.live.bytes := by
  simp [MapEntry.overlaps]

theorem overlaps_eq_false_iff {m : MapEntry} {base bytes : Nat} :
    m.overlaps base bytes = false ↔ base + bytes ≤ m.grant.base ∨ m.grant.base + m.live.bytes ≤ base := by
  rw [← Bool.not_eq_true, overlaps_iff]
  omega

section Place

variable {s : State} {w : WindowId} {v : Live} {n : NodeId} {base : Nat} {r : Rights}

/-- A new grant changes one map and one grant list (R46). -/
theorem addGrant_of_life (hv : (s.window w).life = some v) :
    s.addGrant w n base r =
      ({ s with maps := Table.put s.maps n (insertRef (s.baseOf n) w base (s.map n)) }).withLife w
        { v with grants := insertGrant (.fresh n base r) v.grants } :=
  updateLive_of_life (s := s.setMap n _) hv _

/-- The node has a grant of the window already (R45 step 5). -/
theorem placeGrant_exists {g : GrantRecord} (hg : v.grant n = some g) :
    placeGrant w v n base r s =
      refuse s .grantExists ([slotOf g.state.code] ++ addressSlots g.base ++ [slotOf g.rights.code]) := by
  simp only [placeGrant, hg]

variable (hg : v.grant n = none)
include hg

/-- The node's map is full (R45 step 6). -/
theorem placeGrant_full (hl : 32 ≤ (s.map n).length) :
    placeGrant w v n base r s = refuse s .mapFull [slotOf (s.map n).length] := by
  simp only [placeGrant, hg, if_pos hl]

variable (hl : (s.map n).length < 32)
include hl

/-- The first entry of the map that shares an address with the new range is the one reported (R45 step 7). -/
theorem placeGrant_overlap {below above : List MapEntry} {m : MapEntry} (hm : s.mapEntries n = below ++ m :: above)
    (hb : ∀ x ∈ below, x.overlaps base v.bytes = false) (ho : m.overlaps base v.bytes = true) :
    placeGrant w v n base r s =
      refuse s .overlap ([slotOf m.window.val, slotOf (s.window m.window).generation.toNat] ++
        addressSlots m.grant.base ++ [slotOf (s.map n).length]) := by
  have hfind : (s.mapEntries n).find? (fun x => x.overlaps base v.bytes) = some m :=
    List.find?_eq_some_iff_append.2 ⟨ho, below, above, hm, fun x hx => by simp [hb x hx]⟩
  simp only [placeGrant, hg, if_neg (not_le.2 hl), hfind]

/-- No check is left to fail (R46). -/
theorem placeGrant_made (hc : ∀ m ∈ s.mapEntries n, m.overlaps base v.bytes = false) :
    placeGrant w v n base r s =
      carriedOut (s.addGrant w n base r)
        (addressSlots (base + v.bytes - 1) ++
          [slotOf ((s.map n).length + 1), slotOf (s.window w).generation.toNat]) := by
  have hfind : (s.mapEntries n).find? (fun x => x.overlaps base v.bytes) = none :=
    List.find?_eq_none.2 fun x hx => by simp [hc x hx]
  simp only [placeGrant, hg, if_neg (not_le.2 hl), hfind]

end Place

section Parameters

variable {s : State} {p : Vector Word 8} {w : WindowId} {v : Live} (hn : s.names p w v) (hs : v.state ≠ .retiring)
include hn hs

/-- The parameter checks of GRANT (R45 steps 1 to 4). -/
theorem completeGrant_badParam
    (h : 3 < param p 2 ∨ (param p 5 ≠ 1 ∧ param p 5 ≠ 2) ∨ nodeSpace ≤ paramAddress p 3 4 ∨
      paramAddress p 3 4 % granuleBytes ≠ 0 ∨ nodeSpace < paramAddress p 3 4 + v.bytes) :
    completeGrant p s = refuse s .badParam [] := by
  simp only [completeGrant, windowCheck_passed hn (c := .grant) (bne_iff_ne.2 hs)]
  split
  · rfl
  · rfl
  · rename_i hnode hrights
    have hrange := inRange_of_named hnode hrights
    split
    · rfl
    · rw [if_pos (by tauto)]

/-- GRANT past its parameter checks. -/
theorem completeGrant_eq_placeGrant {n : NodeId} {r : Rights} (h2 : param p 2 = n.val) (h5 : param p 5 = r.code)
    (hlt : paramAddress p 3 4 < nodeSpace) (ha : paramAddress p 3 4 % granuleBytes = 0)
    (hle : paramAddress p 3 4 + v.bytes ≤ nodeSpace) :
    completeGrant p s = placeGrant w v n (paramAddress p 3 4) r s := by
  have hbase : ¬(nodeSpace ≤ paramAddress p 3 4 ∨ paramAddress p 3 4 % granuleBytes ≠ 0) := by omega
  simp only [completeGrant, windowCheck_passed hn (c := .grant) (bne_iff_ne.2 hs), nodeParam_of_eq h2, h5,
    rightsOfCode_code, if_neg hbase, if_neg (not_lt.2 hle)]

end Parameters

/-- Settles O20: the parameter checks of R45 in their order, then the place of the grant in both lists. -/
theorem grantCompletes : Obligations.GrantCompletes := by
  refine ⟨fun s p w v n r h hn hs h2 h5 ha hle hlen hg hl hc => ?_, fun s p w v h hn hs => ⟨fun hbad => ?_, ?_⟩,
    fun _ w _ _ _ hb ha => insertRef_append hb ha w, fun _ _ _ hb ha => insertGrant_append hb ha⟩
  · have hpos := bytes_pos hlen
    refine commandCompletion_of_carriedOut h ?_
    rw [complete, completeGrant_eq_placeGrant hn hs h2 h5 (by omega) ha hle,
      placeGrant_made hg hl fun m hm => overlaps_eq_false_iff.2 (hc m hm), addGrant_of_life hn.2.1]
  · exact commandCompletion_of_refuse h (completeGrant_badParam hn hs hbad)
  · intro n r h2 h5 hlt ha hle
    have hplace : complete .grant p s = placeGrant w v n (paramAddress p 3 4) r s :=
      completeGrant_eq_placeGrant hn hs h2 h5 hlt ha hle
    refine ⟨fun g hg => ?_, fun hg hfull => ?_, fun below m above hg hl hm hb h1 h2 => ?_⟩
    · exact commandCompletion_of_refuse h (hplace.trans (placeGrant_exists hg))
    · exact commandCompletion_of_refuse h (hplace.trans (placeGrant_full hg hfull))
    · exact commandCompletion_of_refuse h (hplace.trans (placeGrant_overlap hg hl hm
        (fun x hx => overlaps_eq_false_iff.2 (hb x hx)) (overlaps_iff.2 ⟨h1, h2⟩)))

/-! ### SET RIGHTS -/

section Rights

variable {s : State} {p : Vector Word 8} {w : WindowId} {v : Live} (hn : s.names p w v) (hs : v.state ≠ .retiring)
include hn hs

/-- The parameter checks of SET RIGHTS (R48). -/
theorem completeSetRights_badParam (h : 3 < param p 2 ∨ (param p 3 ≠ 1 ∧ param p 3 ≠ 2)) :
    completeSetRights p s = refuse s .badParam [] := by
  simp only [completeSetRights, windowCheck_passed hn (c := .setRights) (bne_iff_ne.2 hs)]
  split
  · rfl
  · rfl
  · rename_i hnode hrights
    exact absurd h (inRange_of_named hnode hrights)

variable {n : NodeId} {r : Rights} (h2 : param p 2 = n.val) (h3 : param p 3 = r.code)
include h2 h3

theorem completeSetRights_noGrant (hg : v.grant n = none) : completeSetRights p s = refuse s .noGrant [] := by
  simp only [completeSetRights, windowCheck_passed hn (c := .setRights) (bne_iff_ne.2 hs), nodeParam_of_eq h2, h3,
    rightsOfCode_code, hg]

/-- A DRAINING grant keeps its rights (R48). -/
theorem completeSetRights_draining {g : GrantRecord} (hg : v.grant n = some g) (hd : g.state = .draining) :
    completeSetRights p s = refuse s .inProgress [slotOf 3, slotOf g.rights.code] := by
  simp only [completeSetRights, windowCheck_passed hn (c := .setRights) (bne_iff_ne.2 hs), nodeParam_of_eq h2, h3,
    rightsOfCode_code, hg, hd, if_true]
  rfl

/-- A grant that is not DRAINING takes the new rights and reports the old (R49). -/
theorem completeSetRights_changed {g : GrantRecord} (hg : v.grant n = some g) (hd : g.state ≠ .draining) :
    completeSetRights p s =
      carriedOut
        (s.withLife w { v with grants := v.grants.map fun x => if x.node = n then { x with rights := r } else x })
        [slotOf g.rights.code, slotOf g.state.code, slotOf g.executing, slotOf g.held] := by
  simp only [completeSetRights, windowCheck_passed hn (c := .setRights) (bne_iff_ne.2 hs), nodeParam_of_eq h2, h3,
    rightsOfCode_code, hg, if_neg hd, State.updateGrant, updateLive_of_life hn.2.1]
  rfl

end Rights

/-- Settles O21: the checks of R48 in their order, then the change of R49. -/
theorem setRightsCompletes : Obligations.SetRightsCompletes := by
  intro s p w v h hn hs
  refine ⟨fun hbad => commandCompletion_of_refuse h (completeSetRights_badParam hn hs hbad), fun n r h2 h3 =>
    ⟨fun hg => commandCompletion_of_refuse h (completeSetRights_noGrant hn hs h2 h3 hg), fun g hg =>
      ⟨fun hd => ?_, fun hd => ?_⟩⟩⟩
  · exact commandCompletion_of_refuse h (completeSetRights_draining hn hs h2 h3 hg hd)
  · exact commandCompletion_of_carriedOut h (completeSetRights_changed hn hs h2 h3 hg hd)

/-! ### QUERY GRANT -/

theorem grantStateCode_lt (st : GrantState) : st.code < 256 := by
  cases st <;> simp [GrantState.code]

theorem rightsCode_lt (r : Rights) : r.code < 256 := by
  cases r <;> decide

theorem liveStateCode_lt (st : LiveState) : st.code < 256 := by
  cases st <;> simp [LiveState.code]

theorem jobSlotByte_lt (st : LiveState) : (st.jobSlot.map Fin.val).getD 255 < 256 := by
  cases st with
  | migrating j => exact Nat.lt_trans j.isLt (by decide)
  | _ => decide

/-- P0 of QUERY GRANT: state, rights, notice number and its presence bit (R50, section 11.1.2). -/
def GrantRecord.stateSlot (g : GrantRecord) : Word :=
  packBytes g.state.code g.rights.code (byteOr (g.state.notice.map BitVec.toNat))
    (if g.state.notice.isSome then 1 else 0)

section StateSlot

variable {g : GrantRecord}

theorem stateSlot_revoking {number : Byte} {limit : Option Nat} (h : g.state = .revoking number limit) :
    g.stateSlot = slotOf (2 + 256 * g.rights.code + 65536 * number.toNat + 16777216) := by
  rw [GrantRecord.stateSlot, h]
  exact packBytes_of_lt (b0 := 2) (b3 := 1) (by decide) (rightsCode_lt _) number.isLt (by decide)

theorem stateSlot_of_no_notice (h : g.state.notice = none) :
    g.stateSlot = slotOf (g.state.code + 256 * g.rights.code + 65536 * 255) := by
  rw [GrantRecord.stateSlot, h]
  exact packBytes_of_lt (grantStateCode_lt _) (rightsCode_lt _) (by decide) (by decide)

end StateSlot

/-- Before the deadline its time is rounded up to milliseconds, at least one (R50). -/
theorem timeToDeadline_of_lt {now time : Nat} (h : now < time) :
    timeToDeadline now time = (time - now + 999) / 1000 := by
  unfold timeToDeadline
  omega

section Query

variable {s : State} {p : Vector Word 8} {w : WindowId} {v : Live} (hn : s.names p w v)
include hn

theorem completeQueryGrant_badParam (h : 3 < param p 2) : completeQueryGrant p s = refuse s .badParam [] := by
  simp only [completeQueryGrant, windowCheck_passed hn (c := .queryGrant) rfl, nodeParam_of_gt h]

variable {n : NodeId} (h2 : param p 2 = n.val)
include h2

theorem completeQueryGrant_noGrant (hg : v.grant n = none) : completeQueryGrant p s = refuse s .noGrant [] := by
  simp only [completeQueryGrant, windowCheck_passed hn (c := .queryGrant) rfl, nodeParam_of_eq h2, hg]

/-- QUERY GRANT reports the grant record (R50). -/
theorem completeQueryGrant_reported {g : GrantRecord} (hg : v.grant n = some g) :
    completeQueryGrant p s =
      carriedOut s ([g.stateSlot] ++ addressSlots g.base ++ addressSlots (g.base + v.bytes - 1) ++
        [deadlineSlot s.now g.state, slotOf g.executing, slotOf g.held]) := by
  simp only [completeQueryGrant, windowCheck_passed hn (c := .queryGrant) rfl, nodeParam_of_eq h2, hg]
  rfl

end Query

/-! ### LOOKUP -/

/-- Every byte of LOOKUP's packed slots fits its place while the map holds at most 32 entries (R51, R39). -/
theorem lookupResults_eq {s : State} {n : NodeId} (hl : (s.map n).length ≤ 32) (m : MapEntry) (offset : Nat) :
    s.lookupResults n m offset =
      [slotOf (m.window.val + 256 * (s.window m.window).generation.toNat + 65536 * m.live.state.code +
          16777216 * m.grant.state.code),
        slotOf (m.grant.rights.code + 256 * (m.live.state.jobSlot.map Fin.val).getD 255 +
          65536 * (s.map n).length)] ++
      addressSlots m.grant.base ++ addressSlots offset ++ addressSlots (m.live.home.base * 2097152 + offset) := by
  have hw : m.window.val < 256 := Nat.lt_trans m.window.isLt (by decide)
  have hlen : (s.map n).length < 256 := Nat.lt_of_le_of_lt hl (by decide)
  rw [State.lookupResults, byteOr,
    packBytes_of_lt hw (s.window m.window).generation.isLt (liveStateCode_lt _) (grantStateCode_lt _),
    packBytes_of_lt (rightsCode_lt _) (jobSlotByte_lt _) hlen (by decide)]
  rfl

section Lookup

variable {s : State} {n : NodeId} {addr : Nat}

theorem lookupAddress_badParam (h : nodeSpace ≤ addr) : lookupAddress n addr s = refuse s .badParam [] := by
  simp only [lookupAddress, if_pos h]

theorem lookupAddress_found (h : addr < nodeSpace) {m : MapEntry} (hm : s.entryAt n addr = some m) :
    lookupAddress n addr s = carriedOut s (s.lookupResults n m (addr - m.grant.base)) := by
  simp only [lookupAddress, if_neg (not_le.2 h), hm]

/-- No entry stands above an address that none holds (R51). -/
theorem lookupAddress_noneAbove (h : addr < nodeSpace) (hm : s.entryAt n addr = none)
    (hb : ∀ x ∈ s.mapEntries n, x.grant.base ≤ addr) :
    lookupAddress n addr s = refuse s .noWindow [slotOf (s.map n).length, absentSlot, absentSlot] := by
  have hfind : (s.mapEntries n).find? (fun x => addr < x.grant.base) = none :=
    List.find?_eq_none.2 fun x hx => by simpa using hb x hx
  simp only [lookupAddress, if_neg (not_le.2 h), hm, hfind]
  rfl

/-- The first entry above an address that none holds is the one reported (R51). -/
theorem lookupAddress_nextAbove (h : addr < nodeSpace) (hm : s.entryAt n addr = none) {below above : List MapEntry}
    {m : MapEntry} (hl : s.mapEntries n = below ++ m :: above) (hb : ∀ x ∈ below, x.grant.base ≤ addr)
    (ha : addr < m.grant.base) :
    lookupAddress n addr s = refuse s .noWindow ([slotOf (s.map n).length] ++ addressSlots m.grant.base) := by
  have hfind : (s.mapEntries n).find? (fun x => addr < x.grant.base) = some m :=
    List.find?_eq_some_iff_append.2 ⟨by simpa using ha, below, above, hl, fun x hx => by simpa using hb x hx⟩
  simp only [lookupAddress, if_neg (not_le.2 h), hm, hfind]

variable {p : Vector Word 8}

theorem completeLookup_badParam (h : 3 < param p 0 ∨ 1 < param p 1) : completeLookup p s = refuse s .badParam [] := by
  unfold completeLookup
  split
  · rfl
  · rename_i hnode
    have h0 : ¬3 < param p 0 := fun hgt => by simp [nodeParam_of_gt hgt] at hnode
    rw [if_neg (by omega), if_neg (by omega)]

variable (h0 : param p 0 = n.val)
include h0

theorem completeLookup_eq_lookupAddress (h1 : param p 1 = 0) :
    completeLookup p s = lookupAddress n (paramAddress p 2 3) s := by
  simp only [completeLookup, nodeParam_of_eq h0, if_pos h1]

theorem completeLookup_eq_lookupIndex (h1 : param p 1 = 1) : completeLookup p s = lookupIndex n (param p 2) s := by
  simp only [completeLookup, nodeParam_of_eq h0, h1, if_true, Nat.one_ne_zero, if_false]

end Lookup

/-- Settles O22: QUERY GRANT by the state of the grant; LOOKUP by its mode and by what the map holds. -/
theorem grantQueriesReport : Obligations.GrantQueriesReport := by
  refine ⟨fun s p w v h hn => ⟨fun hbad => ?_, fun n h2 => ⟨fun hg => ?_, fun g hg => ?_⟩⟩, fun s p h =>
    ⟨fun hbad => ?_, fun n h0 => ⟨fun h1 => ?_, fun h1 => ?_⟩⟩, fun s n m offset hl => lookupResults_eq hl m offset⟩
  · exact commandCompletion_of_refuse h (completeQueryGrant_badParam hn hbad)
  · exact commandCompletion_of_refuse h (completeQueryGrant_noGrant hn h2 hg)
  · refine ⟨_, _, commandCompletion_of_carriedOut h (completeQueryGrant_reported hn h2 hg),
      fun number limit hst => ⟨stateSlot_revoking hst, ?_, ?_⟩, fun hst => ⟨?_, ?_⟩, fun hst => ⟨?_, ?_⟩⟩
    · rintro rfl
      rw [hst]
      rfl
    · rintro time rfl hlt
      rw [hst, deadlineSlot, timeToDeadline_of_lt hlt]
    · rw [stateSlot_of_no_notice (by rw [hst]; rfl), hst]
      rfl
    · rw [hst, deadlineSlot]
    · rw [stateSlot_of_no_notice (by rw [hst]; rfl), hst]
      rfl
    · rw [hst, deadlineSlot]
  · exact commandCompletion_of_refuse h (completeLookup_badParam hbad)
  · have hmode : complete .lookup p s = lookupAddress n (paramAddress p 2 3) s := completeLookup_eq_lookupAddress h0 h1
    refine ⟨fun hsp => ?_, fun hsp m hm => ?_, fun hsp hm => ⟨fun hb => ?_, fun below m above hl hb ha => ?_⟩⟩
    · exact commandCompletion_of_refuse h (hmode.trans (lookupAddress_badParam hsp))
    · exact commandCompletion_of_carriedOut h (hmode.trans (lookupAddress_found hsp hm))
    · exact commandCompletion_of_refuse h (hmode.trans (lookupAddress_noneAbove hsp hm hb))
    · exact commandCompletion_of_refuse h (hmode.trans (lookupAddress_nextAbove hsp hm hl hb ha))
  · have hmode : complete .lookup p s = lookupIndex n (param p 2) s := completeLookup_eq_lookupIndex h0 h1
    refine ⟨fun m hm => commandCompletion_of_carriedOut h ?_, fun hm => commandCompletion_of_refuse h ?_⟩
    · rw [hmode, lookupIndex, hm]
    · rw [hmode, lookupIndex, hm]

end Sys2Proof.Machine
end

section
/-! SUPPORT. The node links: link up and the first HELLO, ADMIT NODE, the outbound queue, and messages out of place
(chapter 4). -/

namespace Sys2Proof.Machine

/-! ### Ports and flags -/

/-- Two flags of one source are raised as one reason. -/
theorem flagged_flagged (s : State) (i : Fin 73) (a b : BitVec 6) :
    (s.flagged i a).flagged i b = s.flagged i (a ||| b) := by
  simp only [State.flagged, State.reasons, Table.get_put_same, Table.put_put, BitVec.or_assoc]

/-- A port that is not DOWN takes a message at the tail of its queue (R58). -/
theorem send_eq_answered {s : State} {n : NodeId} (h : s.link n ≠ .down) (m : Message) :
    s.send n m = s.answered n m := by
  rw [State.send, if_neg h]
  rfl

theorem withPort_eq_setPort (s : State) (n : NodeId) (p : Port) : s.withPort n p = s.setPort n p := rfl

/-- The link state and the identity in result slots, whichever state they are read from (section 11.1.2). -/
theorem portResults_eq (s : State) (n : NodeId) :
    s.portResults n =
      [slotOf ((s.link n).code + (if (s.port n).identity.isSome then 256 else 0)),
        (s.port n).identity.getD absentSlot] := by
  have hcode : (s.link n).code < 256 := by cases s.link n <;> decide
  have hflag : (if (s.port n).identity.isSome then 1 else 0) < 256 := by split <;> decide
  rw [State.portResults, packBytes_of_lt hcode hflag (by decide) (by decide)]
  congr 2
  split <;> rfl

/-! ### Link up and the first HELLO -/

/-- The identity of a HELLO is recorded with NODE_UP, and with NODE_CHANGED when another was known (R62). -/
theorem recordIdentity_eq (s : State) (n : NodeId) (identity : Word) :
    s.recordIdentity n identity =
      (s.setPort n { s.port n with identity := some identity }).flagged (nodeSource n)
        (if (s.port n).identity = none ∨ (s.port n).identity = some identity then 0b000001 else 0b000011) := by
  unfold State.recordIdentity
  cases hi : (s.port n).identity with
  | none => rfl
  | some known =>
    by_cases hk : known = identity
    · simp only [hk, if_true, or_true]
      rfl
    · simp only [hk, Option.some.injEq, reduceCtorEq, or_self, if_false]
      have hboth : (s.raise (.nodeUp n)).raise (.nodeChanged n) = s.flagged (nodeSource n) 0b000011 :=
        flagged_flagged s (nodeSource n) 0b000001 0b000010
      rw [hboth]
      rfl

theorem afterHello_eq (st : Standing) (booting : Bool) :
    st.afterHello booting = if st = .opened then (if booting then .waiting else .closed) else st := by
  cases st <;> rfl

/-- An OPEN standing, the installation done and the node's bit in the mask in force admit a node (R63). -/
theorem autoAdmits_iff (s : State) (n : NodeId) :
    s.autoAdmits n = true ↔
      (s.port n).standing = .opened ∧ s.booting = false ∧ s.maskInForce.getLsbD n.val = true := by
  simp [State.autoAdmits, State.inMask, and_assoc]

/-- What a HELLO that leaves its port in a link state makes of the port and of its source (R61, R62, R63, R65). -/
theorem greeted_eq (s : State) (n : NodeId) (identity : Word) {l : LinkState} (hl : l ≠ .down) (admitted : Bool) :
    (((s.recordIdentity n identity).updateStanding n).setLink n l).send n (.welcome admitted) =
      (s.withPort n
        { link := l
          identity := some identity
          standing := (s.port n).standing.afterHello s.booting
          counter := (s.port n).counter
          outbound := (s.port n).outbound ++ [.welcome admitted]
          handed := (s.port n).handed }).flagged (nodeSource n)
        (if (s.port n).identity = none ∨ (s.port n).identity = some identity then 0b000001 else 0b000011) := by
  rw [recordIdentity_eq, send_eq_answered (by rwa [link_setLink, if_pos rfl])]
  simp [State.answered, State.setLink, State.updateStanding, State.withPort, State.flagged, State.setPort,
    State.port, State.reasons]

/-- Settles O23: link up by the link state it finds, the first HELLO by the identity known before. -/
theorem linkComesUp : Obligations.LinkComesUp := by
  refine ⟨fun s n h => ⟨fun hd => ?_, fun hd => ?_⟩, fun s n identity h hl admitted ha => ?_⟩
  · simp only [exec, execLinkUp, event_free h, if_pos hd]
    rfl
  · simp only [exec, execLinkUp, event_free h, if_neg hd]
  · have hadm : s.autoAdmits n = admitted := Bool.eq_iff_iff.2 ((autoAdmits_iff s n).trans ha.symm)
    have hup : (if admitted then .admitted else .fenced : LinkState) ≠ .down := by split <;> simp
    simp only [exec, execHello, event_free h, State.hello, hl, State.firstHello, hadm, greeted_eq _ _ _ hup,
      afterHello_eq]

/-! ### ADMIT NODE -/

theorem completeAdmitNode_badParam {p : Vector Word 8} (h : 3 < param p 0) (s : State) :
    completeAdmitNode p s = refuse s .badParam [] := by
  rw [completeAdmitNode, nodeParam_of_gt h]

section Admit

variable {s : State} {p : Vector Word 8} {n : NodeId} (h0 : param p 0 = n.val)
include h0

theorem completeAdmitNode_fenced (hl : s.link n = .fenced) :
    completeAdmitNode p s =
      carriedOut
        (s.withPort n { s.port n with link := .admitted, outbound := (s.port n).outbound ++ [.admitNotice] })
        [slotOf (3 + (if (s.port n).identity.isSome then 256 else 0)), (s.port n).identity.getD absentSlot] := by
  have hlink : (s.setLink n .admitted).link n ≠ .down := by simp [link_setLink]
  have hstate : (s.setLink n .admitted).send n .admitNotice =
      s.withPort n { s.port n with link := .admitted, outbound := (s.port n).outbound ++ [.admitNotice] } := by
    rw [send_eq_answered hlink]
    simp [State.answered, State.setLink, State.withPort, State.setPort, State.port]
  simp only [completeAdmitNode, nodeParam_of_eq h0, if_pos hl, hstate, portResults_eq]
  simp only [withPort_eq_setPort, State.link, port_setPort, if_true, LinkState.code]

theorem completeAdmitNode_refused (hl : s.link n ≠ .fenced) :
    completeAdmitNode p s = refuse s .nodeState (s.portResults n) := by
  simp only [completeAdmitNode, nodeParam_of_eq h0, if_neg hl]

end Admit

/-- Settles O25: ADMIT NODE by the node it names and by the link state of its port. -/
theorem admitNodeCompletes : Obligations.AdmitNodeCompletes := by
  refine fun s p h => ⟨fun hbad => ?_, fun n h0 => ⟨fun hl => ?_, fun hl => ?_⟩⟩
  · exact commandCompletion_of_refuse h (completeAdmitNode_badParam hbad s)
  · exact commandCompletion_of_carriedOut h (completeAdmitNode_fenced h0 hl)
  · rw [← portResults_eq]
    exact commandCompletion_of_refuse h (completeAdmitNode_refused h0 hl)

/-! ### Bytes of numbers -/

/-- Bytes spell, lowest first, the number they were made of, as far as they reach. -/
theorem leValue_leBytes (k v : Nat) : leValue (leBytes k v) = v % 256 ^ k := by
  induction k generalizing v with
  | zero => simp [leBytes, leValue, Nat.mod_one]
  | succ k ih =>
    rw [leBytes, leValue, ih, BitVec.toNat_ofNat, show 256 ^ (k + 1) = 256 * 256 ^ k from Nat.pow_succ']
    exact Nat.mod_mul.symm

theorem leValue_lt (l : List Byte) : leValue l < 256 ^ l.length := by
  induction l with
  | nil => simp [leValue]
  | cons b l ih =>
    have hb := b.isLt
    simp only [leValue, List.length_cons, Nat.pow_succ']
    omega

/-! ### The outbound queue -/

/-- Settles O27: the head of the queue leaves, and each message's bytes are those of its layout. -/
theorem headMessageLeaves : Obligations.HeadMessageLeaves := by
  refine ⟨fun s n m rest h hq => ?_, fun s n hq => ?_, rfl, rfl, rfl, rfl, fun _ _ => rfl, fun _ => rfl,
    fun _ _ => rfl, fun number base len hb hl => ?_⟩
  · simp only [exec, execHandToLinkLayer, event_free h, hq]
    rfl
  · simp [exec, execHandToLinkLayer, event, hq]
  · refine ⟨_, _, _, _, _, _, _, rfl, ?_, ?_⟩
    · exact (leValue_leBytes 2 len).trans (Nat.mod_eq_of_lt hl)
    · exact (leValue_leBytes 5 base).trans (Nat.mod_eq_of_lt hb)

/-! ### Messages out of place -/

/-- Of the bytes of a WRITE as many are data as its length field states (R172). -/
theorem length_of_parse_write {bytes data : List Byte} {t : Tag} {addr : BitVec 40} {len : BitVec 16}
    (h : Inbound.parse bytes = some (.write t addr len data)) : data.length = len.toNat := by
  unfold Inbound.parse at h
  split at h
  · rename_i kind b1 b2 b3 rest
    split_ifs at h with _ _ _ _ _ hlen <;> simp only [reduceCtorEq, Option.map_eq_some_iff, Inbound.write.injEq,
      Option.some.injEq, and_false, exists_false] at h
    obtain ⟨f, -, -, -, rfl, rfl⟩ := h
    have hlt : leValue [b2, b3] < 65536 := by simpa using leValue_lt [b2, b3]
    rw [List.length_drop, hlen, BitVec.toNat_ofNat]
    omega
  · simp at h

section Turned

variable {s : State} {n : NodeId}

/-- A malformed message is discarded with PROTOCOL (R55). -/
theorem malformed_eq_flagged (h : s.link n ≠ .down) : s.malformed n = s.flagged (nodeSource n) 0b010000 :=
  if_neg h

/-- A request of either kind arrives as the checks of R77 see it. -/
theorem exec_arrival (h : s.resetHeld = false) {k : Kind} {len : BitVec 16} {data : List Byte}
    (hc : carries k len data) (t : Tag) (addr : BitVec 40) :
    exec (arrival k n t addr len data) s = .next (s.arrive n t ⟨k, addr.toNat, len.toNat, data⟩) := by
  cases k with
  | read =>
    obtain rfl : data = [] := hc
    simp only [arrival, exec, execRead, event_free h]
  | write =>
    have hlen : data.length = len.toNat := hc
    simp only [arrival, exec, execWrite, event_free h, if_pos hlen]

/-- A fault FENCED is answered and not captured (R78, R92). -/
theorem sendFault_fenced (h : s.link n ≠ .down) (t : Tag) (k : Kind) (addr : Nat) :
    s.sendFault n ⟨t, k, addr, .fenced⟩ = s.answered n (.completion t (.fault .fenced)) := by
  rw [← send_eq_answered h]
  rfl

end Turned

/-- Settles O28: malformed bytes, requests by the link state of their node, and a tag that is outstanding. -/
theorem misplacedMessagesAreTurnedAway : Obligations.MisplacedMessagesAreTurnedAway := by
  refine ⟨fun s n h hl => ⟨fun bytes hb => ?_, fun t addr len data hd => ?_⟩,
    fun s n bytes => ⟨fun identity hb => ?_, fun t addr len hb => ?_, fun t addr len data hb => ?_,
      fun number hb => ?_⟩,
    fun s k n t addr len data h hc => ⟨fun hl => ?_, fun hl => ?_⟩, fun s k n t addr len data h hc hl ht => ?_⟩
  · simp only [exec, execMalformedMessage, event_free h, hb, malformed_eq_flagged hl]
  · simp only [exec, execWrite, event_free h, if_neg hd, malformed_eq_flagged hl]
  · simp only [exec, execMalformedMessage, execHello, event, hb, State.deliver]
  · simp only [exec, execMalformedMessage, execRead, event, hb, State.deliver]
  · simp only [exec, execMalformedMessage, execWrite, event, hb, State.deliver, if_pos (length_of_parse_write hb)]
  · simp only [exec, execMalformedMessage, execRevokeAck, event, hb, State.deliver]
  · rw [exec_arrival h hc]
    simp only [State.arrive, hl]
    rfl
  · have hup : s.link n ≠ .down := by rcases hl with hl | hl <;> simp [hl]
    rw [exec_arrival h hc, ← sendFault_fenced hup t k addr.toNat]
    rcases hl with hl | hl <;> simp only [State.arrive, hl]
  · rw [exec_arrival h hc]
    simp only [State.arrive, hl, if_pos ht]
    rfl

end Sys2Proof.Machine
end

section
/-! SUPPORT. The entry to FENCING with the answers to the held requests, and FENCE NODE (chapter 4). -/

namespace Sys2Proof.Machine

/-! ### What stands through an answer -/

theorem updateLive_port (s : State) (w : WindowId) (f : Live → Live) (n : NodeId) :
    (s.updateLive w f).port n = s.port n := by
  unfold State.updateLive
  split <;> rfl

theorem updateLive_captures (s : State) (w : WindowId) (f : Live → Live) :
    (s.updateLive w f).captures = s.captures := by
  unfold State.updateLive
  split <;> rfl

theorem hold_foldl_faultEntry (n : NodeId) (r : FaultReason) (l : List HoldEntry) (s : State) :
    (l.foldl (State.faultEntry n r) s).hold = s.hold := by
  induction l generalizing s with
  | nil => rfl
  | cons e l ih =>
    rw [List.foldl_cons, ih, State.faultEntry, hold_of_ledger (faultTag_ledger ..)]
    exact updateLive_hold ..

/-- The entries made hopeless leave their node's queue (R106). -/
theorem hold_faultHeld (s : State) (n : NodeId) (hit : HoldEntry → Bool) (r : FaultReason) :
    (s.faultHeld n hit r).hold = Function.update s.hold n ((s.hold n).filter fun e => !hit e) := by
  rw [State.faultHeld, hold_foldl_faultEntry, hold_setHold_eq]

/-- The tags of the entries made hopeless are free (R91). -/
theorem tag_foldl_faultEntry (n : NodeId) (r : FaultReason) (l : List HoldEntry) (s : State) (m : NodeId) (u : Tag) :
    (l.foldl (State.faultEntry n r) s).tag m u =
      if n = m ∧ u ∈ l.map (fun e => e.tag) then none else s.tag m u := by
  induction l generalizing s with
  | nil => simp
  | cons e l ih =>
    rw [List.foldl_cons, ih, tag_faultEntry]
    by_cases hu : n = m ∧ u ∈ l.map fun e => e.tag
    · rw [if_pos hu, if_pos ⟨hu.1, List.mem_cons_of_mem _ hu.2⟩]
    · rw [if_neg hu]
      refine if_congr ⟨fun ⟨hm, he⟩ => ⟨hm, he ▸ List.mem_cons_self ..⟩, fun ⟨hm, he⟩ => ⟨hm, ?_⟩⟩ rfl rfl
      rcases List.mem_cons.1 he with he | he
      · exact he.symm
      · exact absurd ⟨hm, he⟩ hu

/-! ### The FENCED completions -/

section Fenced

variable {s : State} {n : NodeId}

/-- A held request that is fenced is answered at the tail of its node's queue; no capture record takes it (R69, R92). -/
theorem faultEntry_fenced (hl : s.link n ≠ .down) {e : HoldEntry} (ht : (s.tag n e.tag).isSome = true) :
    s.faultEntry n .fenced e =
      ((s.lowerHeld e.window n).setTag n e.tag none).answered n (.completion e.tag (.fault .fenced)) := by
  obtain ⟨x, hx⟩ := Option.isSome_iff_exists.1 ht
  have hx' : (s.lowerHeld e.window n).tag n e.tag = some x := (updateLive_tag ..).trans hx
  have hup : ((s.lowerHeld e.window n).setTag n e.tag none).link n ≠ .down := by
    rw [setTag_link, State.link, State.lowerHeld, updateLive_port]
    exact hl
  simp only [State.faultEntry, State.faultTag, hx', sendFault_fenced hup]

/-- The held requests that a fence faults are answered in queue order, and their tags are free (R69, R91). -/
theorem foldl_faultEntry_fenced (l : List HoldEntry) (hl : s.link n ≠ .down) (hn : (l.map fun e => e.tag).Nodup)
    (ht : ∀ e ∈ l, (s.tag n e.tag).isSome = true) :
    (l.foldl (State.faultEntry n .fenced) s).port n =
        { s.port n with
          outbound := (s.port n).outbound ++ l.map fun e => Message.completion e.tag (.fault .fenced) } ∧
      (l.foldl (State.faultEntry n .fenced) s).captures = s.captures := by
  induction l generalizing s with
  | nil => simp
  | cons e l ih =>
    obtain ⟨hne, hnl⟩ := List.nodup_cons.1 hn
    have he := faultEntry_fenced hl (ht e (List.mem_cons_self ..))
    have hport : (s.faultEntry n .fenced e).port n =
        { s.port n with outbound := (s.port n).outbound ++ [.completion e.tag (.fault .fenced)] } := by
      have hlow : ((s.lowerHeld e.window n).setTag n e.tag none).port n = s.port n := updateLive_port ..
      rw [he, State.answered, hlow]
      exact Table.get_put_same ..
    have hcap : (s.faultEntry n .fenced e).captures = s.captures := by
      rw [he]
      exact updateLive_captures ..
    have hlink : (s.faultEntry n .fenced e).link n ≠ .down := by
      rw [State.link, hport]
      exact hl
    have htags : ∀ f ∈ l, ((s.faultEntry n .fenced e).tag n f.tag).isSome = true := by
      intro f hf
      rw [tag_faultEntry, if_neg fun hc => hne (List.mem_map.2 ⟨f, hf, hc.2.symm⟩)]
      exact ht f (List.mem_cons_of_mem _ hf)
    obtain ⟨h1, h2⟩ := ih hlink hnl htags
    exact ⟨by rw [List.foldl_cons, h1, hport]; simp, h2.trans hcap⟩

end Fenced

/-! ### The entry to FENCING -/

/-- A port that has been told of its fence, before its held requests are faulted (R69). -/
def State.fenceTold (s : State) (n : NodeId) : State := (s.send n .fenceNotice).setLink n .fencing

/-- A fence up to its drain: the port told, its held requests faulted FENCED (R69). -/
def State.fenceFaulted (s : State) (n : NodeId) : State := (s.fenceTold n).faultHeld n (fun _ => true) .fenced

theorem enterFencing_eq (s : State) (n : NodeId) : s.enterFencing n = (s.fenceFaulted n).endFenceDrain n := rfl

section Enter

variable {s : State} {n : NodeId}

theorem fenceTold_ledger (s : State) (n : NodeId) : (s.fenceTold n).ledger = s.ledger := by simp [State.fenceTold]

theorem port_fenceTold (hl : s.link n ≠ .down) :
    (s.fenceTold n).port n =
      { s.port n with link := .fencing, outbound := (s.port n).outbound ++ [.fenceNotice] } := by
  rw [State.fenceTold, State.setLink, port_setPort, if_pos rfl, port_send, if_pos ⟨rfl, hl⟩]

theorem captures_fenceTold (s : State) (n : NodeId) : (s.fenceTold n).captures = s.captures := by
  unfold State.fenceTold State.send
  split <;> rfl

theorem hold_fenceFaulted (s : State) (n : NodeId) : (s.fenceFaulted n).hold n = [] := by
  simp [State.fenceFaulted, hold_faultHeld]

theorem fenceFaulted_answers (s : State) (n : NodeId) : (s.fenceFaulted n).beyondAnswers = s.beyondAnswers := by
  simp [State.fenceFaulted, State.fenceTold]

/-- Held requests all have a tag of their own, so that each is answered: the port and the capture records (R69). -/
theorem port_fenceFaulted (ha : s.TagsAgree) (hl : s.link n ≠ .down) :
    (s.fenceFaulted n).port n =
        { s.port n with
          link := .fencing
          outbound := (s.port n).outbound ++
            .fenceNotice :: (s.hold n).map fun e => Message.completion e.tag (.fault .fenced) } ∧
      (s.fenceFaulted n).captures = s.captures := by
  have hhold : (s.fenceTold n).hold = s.hold := hold_of_ledger (fenceTold_ledger s n)
  have htag : ∀ e ∈ s.hold n, (((s.fenceTold n).setHold n []).tag n e.tag).isSome = true := by
    intro e he
    obtain ⟨x, hx, -⟩ := ha.heldTag n e he
    rw [setHold_tag, tag_of_ledger (fenceTold_ledger s n), hx]
    rfl
  have hup : ((s.fenceTold n).setHold n []).link n ≠ .down := by
    rw [setHold_link, State.link, port_fenceTold hl]
    simp
  obtain ⟨hport, hcap⟩ := foldl_faultEntry_fenced (s.hold n) hup (ha.heldOnce n) htag
  have hall : s.fenceFaulted n = (s.hold n).foldl (State.faultEntry n .fenced) ((s.fenceTold n).setHold n []) := by
    simp [State.fenceFaulted, State.faultHeld, hhold]
  rw [hall]
  refine ⟨hport.trans ?_, hcap.trans (captures_fenceTold s n)⟩
  rw [setHold_port, port_fenceTold hl]
  simp

/-- The tag of a request that was held is free once its node is fenced (R91). -/
theorem tag_fenceFaulted (ha : s.TagsAgree) {u : Tag} {x : TagEntry} (hx : s.tag n u = some x)
    (hp : x.phase = .held) : (s.fenceFaulted n).tag n u = none := by
  obtain ⟨e, he, rfl⟩ := ha.tagHeld n u x hx hp
  have hhold : (s.fenceTold n).hold = s.hold := hold_of_ledger (fenceTold_ledger s n)
  rw [State.fenceFaulted, State.faultHeld, tag_foldl_faultEntry, if_pos]
  simpa [hhold] using ⟨e, he, rfl⟩

end Enter

/-! ### FENCE NODE -/

/-- A fence drain with nothing executing ends at once (R70). -/
theorem endFenceDrain_ended {s : State} {n : NodeId} (hl : s.link n = .fencing) (h : s.nodeExecuting n = 0) :
    s.endFenceDrain n = (s.setLink n .fenced).raise (.nodeFenced n) :=
  if_pos ⟨hl, h⟩

/-- A fence drain goes on while something of the node executes (R70). -/
theorem endFenceDrain_going {s : State} {n : NodeId} (h : s.nodeExecuting n ≠ 0) : s.endFenceDrain n = s :=
  if_neg fun hc => h hc.2

/-- A fence drain that is looked at changes the link state of its port and its source alone (R70). -/
theorem endFenceDrain_frame (s : State) (n : NodeId) :
    (s.endFenceDrain n).port n = { s.port n with link := ((s.endFenceDrain n).port n).link } ∧
      (s.endFenceDrain n).holds = s.holds ∧ (s.endFenceDrain n).tags = s.tags ∧
      (s.endFenceDrain n).captures = s.captures := by
  unfold State.endFenceDrain
  split
  · exact ⟨by rw [State.raise, setReasons_port, State.setLink, port_setPort, if_pos rfl], rfl, rfl, rfl⟩
  · exact ⟨rfl, rfl, rfl, rfl⟩

theorem transactions_of_answers {s t : State} (h : t.beyondAnswers = s.beyondAnswers) :
    t.transactions = s.transactions := (congrArg State.transactions h :)

theorem channels_of_answers {s t : State} (h : t.beyondAnswers = s.beyondAnswers) : t.channels = s.channels :=
  (congrArg State.channels h :)

/-- Neither what tells the port nor what faults its held requests ends a transaction (R69). -/
theorem nodeExecuting_fenceFaulted (s : State) (n : NodeId) :
    (s.fenceFaulted n).nodeExecuting n = s.nodeExecuting n := by
  rw [State.nodeExecuting, transactions_of_answers (fenceFaulted_answers s n), State.nodeExecuting]

theorem link_fenceFaulted {s : State} {n : NodeId} (ha : s.TagsAgree) (hl : s.link n ≠ .down) :
    (s.fenceFaulted n).link n = .fencing := by
  rw [State.link, (port_fenceFaulted ha hl).1]

/-- The link state after the entry to FENCING: FENCED at once when nothing executes (R69, R70). -/
theorem link_enterFencing {s : State} {n : NodeId} (ha : s.TagsAgree) (hl : s.link n ≠ .down) :
    (s.enterFencing n).link n = if s.nodeExecuting n = 0 then .fenced else .fencing := by
  have hx := nodeExecuting_fenceFaulted s n
  have hf := link_fenceFaulted ha hl
  rw [enterFencing_eq]
  split
  · rename_i h0
    rw [endFenceDrain_ended hf (hx.trans h0), State.raise, setReasons_link, link_setLink, if_pos rfl]
  · rename_i h0
    rw [endFenceDrain_going fun hc => h0 (hx.symm.trans hc), hf]

theorem isPending_enterFencing {s : State} {n : NodeId} (ha : s.TagsAgree) (hl : s.link n ≠ .down)
    (h0 : s.nodeExecuting n = 0) : (s.enterFencing n).isPending (.nodeFenced n) = true := by
  rw [enterFencing_eq, endFenceDrain_ended (link_fenceFaulted ha hl) ((nodeExecuting_fenceFaulted s n).trans h0)]
  exact isPending_raise ..

theorem completeFenceNode_badParam {p : Vector Word 8} (h : 3 < param p 0) (s : State) :
    completeFenceNode p s = refuse s .badParam [] := by
  rw [completeFenceNode, nodeParam_of_gt h]

section Fence

variable {s : State} {p : Vector Word 8} {n : NodeId} (h0 : param p 0 = n.val)
include h0

theorem completeFenceNode_refused (hl : s.link n ≠ .admitted) :
    completeFenceNode p s = refuse s .nodeState (s.portResults n) := by
  simp only [completeFenceNode, nodeParam_of_eq h0, if_neg hl]

theorem completeFenceNode_admitted (hl : s.link n = .admitted) :
    completeFenceNode p s =
      carriedOut (s.enterFencing n) ((s.enterFencing n).portResults n ++ [slotOf (s.nodeExecuting n)]) := by
  simp only [completeFenceNode, nodeParam_of_eq h0, if_pos hl]

end Fence

/-- Settles O26: FENCE NODE by the node and the link state; what the fence does to the held requests, and its drain. -/
theorem fenceNodeCompletes : Obligations.FenceNodeCompletes := by
  refine fun s p h => ⟨fun hbad => ?_, fun n h0 => ⟨fun hl => ?_, fun hl ha => ?_⟩⟩
  · exact commandCompletion_of_refuse h (completeFenceNode_badParam hbad s)
  · rw [← portResults_eq]
    exact commandCompletion_of_refuse h (completeFenceNode_refused h0 hl)
  · have hup : s.link n ≠ .down := by simp [hl]
    obtain ⟨hport, hcap⟩ := port_fenceFaulted ha hup
    obtain ⟨hdport, hdholds, hdtags, hdcap⟩ := endFenceDrain_frame (s.fenceFaulted n) n
    rw [← enterFencing_eq] at hdport hdholds hdtags hdcap
    have hlink := link_enterFencing ha hup
    have hrest : (s.enterFencing n).beyondAnswers = s.beyondAnswers := enterFencing_answers s n
    have hid : ((s.enterFencing n).port n).identity = (s.port n).identity := by rw [hdport, hport]
    have hcode : ((s.enterFencing n).link n).code = if s.nodeExecuting n = 0 then 2 else 4 := by
      rw [hlink]
      split <;> rfl
    refine ⟨s.enterFencing n, ?_, ?_, ?_, fun hx => ⟨?_, ?_⟩, fun hx => ?_, fun tag x hx hp => ?_, ?_, ?_, ?_, ?_⟩
    · rw [commandCompletion_of_carriedOut h (completeFenceNode_admitted h0 hl), portResults_eq, hid, hcode]
      rfl
    · rw [State.hold, hdholds]
      exact hold_fenceFaulted s n
    · rw [hdport, hport]
    · rw [hlink, if_pos hx]
    · exact isPending_enterFencing ha hup hx
    · rw [hlink, if_neg hx]
    · rw [State.tag, hdtags]
      exact tag_fenceFaulted ha hx hp
    · exact maps_of_answers hrest
    · exact transactions_of_answers hrest
    · exact hdcap.trans hcap
    · exact channels_of_answers hrest


end Sys2Proof.Machine
end

section
/-! SUPPORT. Notice numbers: what leaves them as they are and what can only take one back (R72, R112). -/

namespace Sys2Proof.Machine

/-! ### The notice number of a grant -/

/-- The notice number of a window's grant for a node, if it is REVOKING. -/
def Live.noticeOf (v : Live) (n : NodeId) : Option Byte := (v.grant n).bind fun g => g.state.notice

theorem noticeOf_eq (s : State) (n : NodeId) (w : WindowId) :
    s.noticeOf n w = (s.window w).life.bind fun v => v.noticeOf n := by
  unfold State.noticeOf State.grant
  cases (s.window w).life with
  | none => rfl
  | some v =>
    simp only [Option.bind_some, Live.noticeOf]
    cases v.grant n <;> rfl

theorem noticeOf_shape (v : Live) (n : NodeId) : v.shape.noticeOf n = v.noticeOf n := by
  simp only [Live.noticeOf, grant_shape]
  cases v.grant n <;> rfl

theorem noticeOf_of_grants {v u : Live} (h : v.grants = u.grants) (n : NodeId) : v.noticeOf n = u.noticeOf n := by
  simp only [Live.noticeOf, Live.grant, h]

/-- Windows that have kept their shape have kept their notices. -/
theorem noticeOf_of_shape {s t : State} (h : ∀ w, t.shape w = s.shape w) : t.noticeOf = s.noticeOf := by
  have hmap : ∀ (o : Option Live) (n : NodeId),
      (o.bind fun v => v.noticeOf n) = (o.map Live.shape).bind fun v => v.noticeOf n := by
    intro o n
    cases o with
    | none => rfl
    | some v => exact (noticeOf_shape v n).symm
  funext n w
  have hw : (t.window w).life.map Live.shape = (s.window w).life.map Live.shape := congrArg Prod.snd (h w)
  rw [noticeOf_eq, noticeOf_eq, hmap, hw, ← hmap]

theorem noticeOf_of_windows {s t : State} (h : t.windows = s.windows) : t.noticeOf = s.noticeOf :=
  noticeOf_of_shape (shape_of_windows h)

theorem updateLive_noticeOf (s : State) (w : WindowId) {f : Live → Live} (hf : ∀ v, (f v).grants = v.grants) :
    (s.updateLive w f).noticeOf = s.noticeOf := by
  funext n x
  rw [noticeOf_eq, noticeOf_eq, life_updateLive]
  split
  · rw [Option.bind_map]
    exact congrArg _ (funext fun v => noticeOf_of_grants (hf v) n)
  · rfl

/-! ### What leaves every notice as it is -/

section Frames

variable (s : State)

@[simp] theorem setMap_noticeOf (n : NodeId) (m : List WindowId) : (s.setMap n m).noticeOf = s.noticeOf := rfl
@[simp] theorem setPort_noticeOf (n : NodeId) (p : Port) : (s.setPort n p).noticeOf = s.noticeOf := rfl
@[simp] theorem setLink_noticeOf (n : NodeId) (l : LinkState) : (s.setLink n l).noticeOf = s.noticeOf := rfl
@[simp] theorem setCapture_noticeOf (n : NodeId) (c : Option Capture) :
    (s.setCapture n c).noticeOf = s.noticeOf := rfl
@[simp] theorem setSlot_noticeOf (j : SlotId) (t : Slot) : (s.setSlot j t).noticeOf = s.noticeOf := rfl
@[simp] theorem setPhase_noticeOf (p : EnginePhase) : (s.setPhase p).noticeOf = s.noticeOf := rfl
@[simp] theorem setReasons_noticeOf (i : Fin 73) (r : BitVec 6) : (s.setReasons i r).noticeOf = s.noticeOf := rfl
@[simp] theorem raise_noticeOf (f : Flag) : (s.raise f).noticeOf = s.noticeOf := rfl
@[simp] theorem release_noticeOf (e : Extent) : (s.release e).noticeOf = s.noticeOf := rfl
@[simp] theorem issueCopyRead_noticeOf (j : SlotId) (job : Job) : (s.issueCopyRead j job).noticeOf = s.noticeOf := rfl
@[simp] theorem issueCopyWrite_noticeOf (j : SlotId) (job : Job) (data : List Byte) :
    (s.issueCopyWrite j job data).noticeOf = s.noticeOf := rfl
@[simp] theorem clearOutbound_noticeOf (n : NodeId) : (s.clearOutbound n).noticeOf = s.noticeOf := rfl
@[simp] theorem abandonTags_noticeOf (n : NodeId) : (s.abandonTags n).noticeOf = s.noticeOf := rfl
@[simp] theorem updateStanding_noticeOf (n : NodeId) : (s.updateStanding n).noticeOf = s.noticeOf := rfl
@[simp] theorem endOp_noticeOf (c : ChannelId) (op : PoolOp) (rest : List PoolOp) (dramFault : Bool) :
    (s.endOp c op rest dramFault).state.noticeOf = s.noticeOf := rfl

/-! ### Answers, requests and replay -/

@[simp] theorem send_noticeOf (n : NodeId) (m : Message) : (s.send n m).noticeOf = s.noticeOf :=
  noticeOf_of_windows (windows_send s n m)

@[simp] theorem sendFault_noticeOf (n : NodeId) (c : Capture) : (s.sendFault n c).noticeOf = s.noticeOf :=
  noticeOf_of_windows ((windows_captureFault ..).trans (windows_send ..))

@[simp] theorem faultHeld_noticeOf (n : NodeId) (hit : HoldEntry → Bool) (r : FaultReason) :
    (s.faultHeld n hit r).noticeOf = s.noticeOf := noticeOf_of_shape (shape_faultHeld s n hit r)

@[simp] theorem settle_noticeOf (n : NodeId) (t : Tag) (q : Request) : (s.settle n t q).noticeOf = s.noticeOf :=
  noticeOf_of_shape (shape_settle s n t q)

@[simp] theorem replay_noticeOf (n : NodeId) : (s.replay n).state.noticeOf = s.noticeOf :=
  noticeOf_of_shape (shape_replay s n)

@[simp] theorem replayWindow_noticeOf (w : WindowId) : (s.replayWindow w).state.noticeOf = s.noticeOf :=
  noticeOf_of_shape (shape_replayWindow s w)

@[simp] theorem closeRecord_noticeOf (t : Transaction) : (s.closeRecord t).noticeOf = s.noticeOf :=
  noticeOf_of_shape fun w => (closeRecord_frame s t w).1

@[simp] theorem dropHolds_noticeOf (n : NodeId) : (s.dropHolds n).noticeOf = s.noticeOf :=
  noticeOf_of_shape fun w => (dropHolds_frame s n w).1

@[simp] theorem arrive_noticeOf (n : NodeId) (t : Tag) (q : Request) : (s.arrive n t q).noticeOf = s.noticeOf := by
  unfold State.arrive
  split
  · rfl
  · simp
  · simp
  · simp
  · split_ifs <;> simp

@[simp] theorem malformed_noticeOf (n : NodeId) : (s.malformed n).noticeOf = s.noticeOf := by
  unfold State.malformed
  split <;> rfl

@[simp] theorem expireHolds_noticeOf (n : NodeId) (t : Nat) : (s.expireHolds n t).noticeOf = s.noticeOf := by
  simp [State.expireHolds]

/-! ### Links -/

@[simp] theorem endFenceDrain_noticeOf (n : NodeId) : (s.endFenceDrain n).noticeOf = s.noticeOf := by
  unfold State.endFenceDrain
  split <;> rfl

@[simp] theorem enterFencing_noticeOf (n : NodeId) : (s.enterFencing n).noticeOf = s.noticeOf := by
  simp [State.enterFencing]

@[simp] theorem policyFence_noticeOf (n : NodeId) : (s.policyFence n).noticeOf = s.noticeOf := by
  unfold State.policyFence
  split <;> simp

@[simp] theorem recordIdentity_noticeOf (n : NodeId) (identity : Word) :
    (s.recordIdentity n identity).noticeOf = s.noticeOf := by
  rw [recordIdentity_eq]
  rfl

@[simp] theorem firstHello_noticeOf (n : NodeId) (identity : Word) :
    (s.firstHello n identity).noticeOf = s.noticeOf := by
  simp [State.firstHello]

@[simp] theorem decidePort_noticeOf (n : NodeId) : (s.decidePort n).noticeOf = s.noticeOf := by
  unfold State.decidePort
  split
  · simp only []
    split <;> simp
  · rfl

/-! ### The Copy Engine -/

@[simp] theorem readOrWait_noticeOf (j : SlotId) (job : Job) : (s.readOrWait j job).noticeOf = s.noticeOf := by
  unfold State.readOrWait
  split <;> rfl

@[simp] theorem startTurn_noticeOf : s.startTurn.noticeOf = s.noticeOf := by
  unfold State.startTurn
  split
  · rfl
  · split
    · rw [readOrWait_noticeOf]
      rfl
    all_goals rfl

@[simp] theorem endTurn_noticeOf : s.endTurn.noticeOf = s.noticeOf := by
  unfold State.endTurn
  split <;> simp

@[simp] theorem endWaiting_noticeOf (j : SlotId) : (s.endWaiting j).noticeOf = s.noticeOf := by
  unfold State.endWaiting
  split <;> simp

@[simp] theorem resumeWaiting_noticeOf (j : SlotId) : (s.resumeWaiting j).noticeOf = s.noticeOf := by
  unfold State.resumeWaiting
  split
  · split
    · simp
    all_goals rfl
  · rfl

theorem grants_endMigration (j : SlotId) (v : Live) : (v.endMigration j).grants = v.grants := by
  unfold Live.endMigration
  split <;> rfl

@[simp] theorem finish_noticeOf (j : SlotId) (job : Job) (o : JobOutcome) (e : Extent) (f : Flag) :
    (s.finish j job o e f).noticeOf = s.noticeOf := by
  simp [State.finish, updateLive_noticeOf _ _ (grants_endMigration j)]

@[simp] theorem lookDrain_noticeOf (j : SlotId) : (s.lookDrain j).noticeOf = s.noticeOf := by
  unfold State.lookDrain
  split
  · split <;> simp
  · split <;> simp
  all_goals rfl

@[simp] theorem tellEngine_noticeOf (w : WindowId) : (s.tellEngine w).noticeOf = s.noticeOf := by
  unfold State.tellEngine
  split
  · rfl
  · split
    · simp
    all_goals rfl

@[simp] theorem tellDirectory_noticeOf (w : WindowId) : (s.tellDirectory w).noticeOf = s.noticeOf := by
  unfold State.tellDirectory
  split
  · rfl
  · split
    · exact updateLive_noticeOf s w fun _ => rfl
    · rfl

@[simp] theorem enterAborting_noticeOf (j : SlotId) (r : AbortReason) :
    (s.enterAborting j r).noticeOf = s.noticeOf := by
  unfold State.enterAborting
  split
  · simp only [lookDrain_noticeOf]
    split <;> simp
  all_goals rfl

@[simp] theorem mirrorFailed_noticeOf (w : WindowId) : (s.mirrorFailed w).noticeOf = s.noticeOf := by
  unfold State.mirrorFailed
  split
  · rfl
  · split
    · simp
    all_goals rfl

@[simp] theorem afterChunk_noticeOf (j : SlotId) (job : Job) : (s.afterChunk j job).noticeOf = s.noticeOf := by
  unfold State.afterChunk
  split
  · rw [State.switch, lookDrain_noticeOf, setSlot_noticeOf]
    exact updateLive_noticeOf s _ fun _ => rfl
  · simp

@[simp] theorem copyFailed_noticeOf (j : SlotId) (r : AbortReason) : (s.copyFailed j r).noticeOf = s.noticeOf := by
  simp [State.copyFailed]

@[simp] theorem endAbortedTurn_noticeOf (j : SlotId) : (s.endAbortedTurn j).noticeOf = s.noticeOf := by
  simp [State.endAbortedTurn]

theorem copyReadEnded_noticeOf (j : SlotId) (r : OpEnd) : (State.copyReadEnded j r).noticeOf = r.state.noticeOf := by
  unfold State.copyReadEnded
  split
  · split <;> simp
  all_goals simp

theorem copyWriteEnded_noticeOf (j : SlotId) (r : OpEnd) :
    (State.copyWriteEnded j r).noticeOf = r.state.noticeOf := by
  unfold State.copyWriteEnded
  split
  · split <;> simp
  all_goals simp

@[simp] theorem migrate_noticeOf (w : WindowId) (v : Live) (j : SlotId) (target : Extent) (free : List Extent) :
    (s.migrate w v j target free).noticeOf = s.noticeOf := by
  unfold State.migrate
  simp only []
  split
  · rw [startTurn_noticeOf]
    exact updateLive_noticeOf _ w fun _ => rfl
  · exact updateLive_noticeOf _ w fun _ => rfl

@[simp] theorem suspend_noticeOf (w : WindowId) (v : Live) : (s.suspend w v).noticeOf = s.noticeOf := by
  unfold State.suspend
  simp only []
  split
  · exact updateLive_noticeOf s w fun _ => rfl
  · exact updateLive_noticeOf s w fun _ => rfl

@[simp] theorem resume_noticeOf (w : WindowId) : (s.resume w).state.noticeOf = s.noticeOf :=
  (replayWindow_noticeOf ..).trans (updateLive_noticeOf s w fun _ => rfl)

/-! ### The port -/

@[simp] theorem writeControl_noticeOf (value : Word) : (s.writeControl value).noticeOf = s.noticeOf := by
  unfold State.writeControl
  split
  · unfold State.softReset State.abandonCommand
    split <;> rfl
  · rfl

@[simp] theorem writeCommand_noticeOf (code : Word) : (s.writeCommand code).noticeOf = s.noticeOf := by
  unfold State.writeCommand
  split <;> rfl

@[simp] theorem writeParam_noticeOf (k : Fin 8) (value : Word) : (s.writeParam k value).noticeOf = s.noticeOf := by
  unfold State.writeParam
  split <;> rfl

@[simp] theorem writeSlot_noticeOf (i : Fin 16) (value : Word) : (s.writeSlot i value).noticeOf = s.noticeOf := by
  unfold State.writeSlot
  split <;> simp

@[simp] theorem ackSource_noticeOf (i : Fin 73) (named : BitVec 6) : (s.ackSource i named).noticeOf = s.noticeOf := by
  unfold State.ackSource State.releaseSlot
  simp only []
  split
  · split <;> simp
  · rfl

@[simp] theorem tick_noticeOf : s.tick.noticeOf = s.noticeOf := by
  unfold State.tick
  split <;> rfl

theorem reach_noticeOf {s u : State} {t : Nat} (h : s.reach t = some u) : u.noticeOf = s.noticeOf := by
  unfold State.reach at h
  split at h
  · obtain rfl := Option.some.inj h
    rfl
  · simp at h

end Frames

/-! ### What gives no notice number -/

/-- From `s` to `t` no grant is given a notice number: every one held after was held before. -/
structure State.Silent (s t : State) : Prop where
  held : ∀ n w number, t.noticeOf n w = some number → s.noticeOf n w = some number

namespace State.Silent

theorem of_eq {s t : State} (h : t.noticeOf = s.noticeOf) : s.Silent t := ⟨fun _ _ _ hb => h ▸ hb⟩

theorem refl (s : State) : s.Silent s := of_eq rfl

theorem trans {s t u : State} (h : s.Silent t) (h' : t.Silent u) : s.Silent u :=
  ⟨fun n w b hb => h.held n w b (h'.held n w b hb)⟩

theorem foldl {α : Type} {f : State → α → State} (hf : ∀ (s : State) x, s.Silent (f s x)) (l : List α) (s : State) :
    s.Silent (l.foldl f s) := by
  induction l generalizing s with
  | nil => exact refl s
  | cons x l ih => exact (hf s x).trans (ih _)

/-- A window keeps the notices of its grants that are not withdrawn. -/
theorem updateLive (s : State) (w : WindowId) {f : Live → Live}
    (hf : ∀ v n number, (f v).noticeOf n = some number → v.noticeOf n = some number) :
    s.Silent (s.updateLive w f) := by
  refine ⟨fun n x b hb => ?_⟩
  rw [noticeOf_eq, life_updateLive] at hb
  rw [noticeOf_eq]
  split at hb
  · cases hv : (s.window x).life with
    | none => simp [hv] at hb
    | some v =>
      rw [hv] at hb
      exact hf v n b hb
  · exact hb

/-- A window without grants has no notices. -/
theorem setWindow (s : State) (w : WindowId) {r : WindowRecord} (hr : ∀ v, r.life = some v → v.grants = []) :
    s.Silent (s.setWindow w r) := by
  refine ⟨fun n x b hb => ?_⟩
  rw [noticeOf_eq, window_setWindow] at hb
  rw [noticeOf_eq]
  split at hb
  · cases hv : r.life with
    | none => simp [hv] at hb
    | some v => simp [hv, Live.noticeOf, Live.grant, hr v hv] at hb
  · exact hb

end State.Silent

/-- A step that gives no notice number keeps them distinct. -/
theorem State.NoticesDistinct.silent {s t : State} (h : s.NoticesDistinct) (hst : s.Silent t) : t.NoticesDistinct :=
  fun n w x b hw hx => h n w x b (hst.held n w b hw) (hst.held n x b hx)

theorem State.NoticesDistinct.of_eq {s t : State} (h : s.NoticesDistinct) (ht : t.noticeOf = s.noticeOf) :
    t.NoticesDistinct := h.silent (.of_eq ht)

section Withdrawals

variable (s : State)

theorem noticeOf_draining (v : Live) (n m : NodeId) :
    (v.updateGrant n fun g => { g with state := .draining }).noticeOf m = if m = n then none else v.noticeOf m := by
  unfold Live.noticeOf
  rw [grant_updateGrant v n m (fun g => { g with state := .draining }) fun _ => rfl]
  split
  · cases v.grant m <;> rfl
  · rfl

/-- An unlisting takes back the number of its grant (R116). -/
theorem delist_silent (w : WindowId) (n : NodeId) : s.Silent (s.delist w n) := by
  refine .trans (.of_eq (setMap_noticeOf ..)) (.updateLive _ w fun v m b hb => ?_)
  rw [noticeOf_draining] at hb
  split at hb
  · simp at hb
  · exact hb

/-- The removal of a grant takes back its number (R122). -/
theorem removed_silent (w : WindowId) (n : NodeId) :
    s.Silent (s.updateLive w fun v => { v with grants := v.grants.filter fun g => g.node != n }) := by
  refine .updateLive s w fun v m b hb => ?_
  unfold Live.noticeOf at hb ⊢
  rw [grant_filter_ne] at hb
  split at hb
  · simp at hb
  · exact hb

theorem retireIfEmpty_silent (w : WindowId) : s.Silent (s.retireIfEmpty w) := by
  unfold State.retireIfEmpty
  split
  · exact .refl s
  · split
    · rename_i v _ _
      have hfreed : s.Silent ((s.release v.home).setWindow w ⟨(s.window w).generation + 1, none⟩) :=
        .trans (.of_eq (release_noticeOf ..)) (.setWindow _ w fun _ hv => by simp at hv)
      exact hfreed.trans (.of_eq (raise_noticeOf ..))
    · exact .refl s

theorem removeIfDrained_silent (w : WindowId) (n : NodeId) : s.Silent (s.removeIfDrained w n) := by
  unfold State.removeIfDrained
  split
  · exact .refl s
  · split
    · exact ((removed_silent s w n).trans (.of_eq (raise_noticeOf ..))).trans (retireIfEmpty_silent ..)
    · exact .refl s

theorem unlist_silent (w : WindowId) (n : NodeId) : s.Silent (s.unlist w n) :=
  ((delist_silent s w n).trans (.of_eq (faultHeld_noticeOf ..))).trans (removeIfDrained_silent ..)

theorem unlistRevoking_silent (n : NodeId) : s.Silent (s.unlistRevoking n) := by
  have hone : ∀ (s : State) (x : Byte × WindowId), s.Silent (s.unlist x.2 n) := fun s x => unlist_silent s x.2 n
  exact .foldl hone (s.pendingRevocations n) s

theorem dropNode_silent (n : NodeId) : s.Silent (s.dropNode n) :=
  have hdropped : s.Silent (((s.clearOutbound n).abandonTags n).dropHolds n) := .of_eq (by simp)
  hdropped.trans (unlistRevoking_silent ..)

theorem hello_silent (n : NodeId) (identity : Word) : s.Silent (s.hello n identity) := by
  have hr : s.Silent (s.restart n identity) := (dropNode_silent s n).trans (.of_eq (by simp [State.restart]))
  unfold State.hello
  split
  · exact .refl s
  · exact .of_eq (firstHello_noticeOf ..)
  all_goals exact hr

theorem acknowledge_silent (n : NodeId) (number : Byte) : s.Silent (s.acknowledge n number) := by
  unfold State.acknowledge
  split
  · exact .refl s
  · split
    · exact unlist_silent ..
    · exact .of_eq (raise_noticeOf ..)

theorem deliver_silent (n : NodeId) (m : Inbound) : s.Silent (s.deliver n m) := by
  cases m with
  | hello identity => exact hello_silent ..
  | read t addr len => exact .of_eq (arrive_noticeOf ..)
  | write t addr len data => exact .of_eq (arrive_noticeOf ..)
  | revokeAck number => exact acknowledge_silent ..

theorem forceRemoval_silent (w : WindowId) (n : NodeId) : s.Silent (s.forceRemoval w n) :=
  (unlist_silent s w n).trans (.of_eq (by simp [State.forceRemoval]))

/-- The end of a transaction may remove the grant it ran under (R88, R122). -/
theorem endTransaction_silent (t : Transaction) : s.Silent (s.endTransaction t) := by
  have hclosed : s.Silent ((s.closeRecord t).tellDirectory t.window) := .of_eq (by simp)
  rw [endTransaction_eq]
  exact (hclosed.trans (removeIfDrained_silent _ t.window t.node)).trans (.of_eq (by simp))

theorem operationEnded_silent (t : Transaction) (role : Role) (r : OpEnd) : s.Silent (s.operationEnded t role r) := by
  have hn : (s.noteOp t role r.failed r.bytes).noticeOf = s.noticeOf := rfl
  have ht : s.Silent (if r.failed && t.mirrored && role == .target then
      (s.noteOp t role r.failed r.bytes).mirrorFailed t.window else s.noteOp t role r.failed r.bytes) := by
    split
    · exact .of_eq ((mirrorFailed_noticeOf ..).trans hn)
    · exact .of_eq hn
  unfold State.operationEnded
  simp only []
  split
  · exact ht
  · exact ht.trans (endTransaction_silent ..)

/-! ### New windows and new grants -/

theorem find_insertGrant (g : GrantRecord) (l : List GrantRecord) (p : GrantRecord → Bool) :
    (insertGrant g l).find? p = some g ∨ (insertGrant g l).find? p = l.find? p := by
  induction l with
  | nil =>
    simp only [insertGrant, List.find?_cons]
    split <;> simp
  | cons h rest ih =>
    unfold insertGrant
    split
    · simp only [List.find?_cons]
      split <;> simp
    · simp only [List.find?_cons]
      split
      · exact .inr rfl
      · exact ih

/-- A new grant is LISTED, and has no notice number (R46). -/
theorem addGrant_silent (w : WindowId) (n : NodeId) (base : Nat) (r : Rights) : s.Silent (s.addGrant w n base r) := by
  refine .trans (.of_eq (setMap_noticeOf ..)) (.updateLive _ w fun v m b hb => ?_)
  unfold Live.noticeOf Live.grant at hb ⊢
  change ((insertGrant (GrantRecord.fresh n base r) v.grants).find? fun g => g.node == m).bind _ = _ at hb
  rcases find_insertGrant (GrantRecord.fresh n base r) v.grants fun g => g.node == m with hg | hg
  · rw [hg] at hb
    simp [GrantRecord.fresh, GrantState.notice] at hb
  · rwa [hg] at hb

theorem makeWindow_silent (w : WindowId) (home : Extent) (free : List Extent) :
    s.Silent (s.makeWindow w home free) :=
  have hlist : s.Silent { s with freeList := free } := .of_eq rfl
  hlist.trans (.setWindow _ w fun _ hv => Option.some.inj hv ▸ rfl)

theorem installWindows_silent (i : Nat) (ws : List ImageWindow) : s.Silent (s.installWindows i ws) := by
  induction ws generalizing s i with
  | nil => exact .refl s
  | cons x rest ih =>
    exact ((makeWindow_silent ..).trans (.foldl (fun s g => addGrant_silent s _ _ g.base _) x.grants _)).trans
      (ih (s.installWindow i x) (i + 1))

theorem endBoot_silent (status : BootStatus) (mask : BitVec 4) (f : Flag) : s.Silent (s.endBoot status mask f) := by
  have hmask : s.Silent { s with maskInForce := mask } := .of_eq rfl
  have hports := hmask.trans (.foldl (fun s n => .of_eq (decidePort_noticeOf s n)) allNodes _)
  unfold State.endBoot
  generalize allNodes.foldl State.decidePort { s with maskInForce := mask } = t at hports ⊢
  exact hports.trans (.of_eq rfl)

/-- The installation makes LISTED grants only (R169). -/
theorem install_silent (eeprom : List Byte) : s.Silent (s.install eeprom) := by
  unfold State.install
  split
  · rename_i m _
    have hset : s.Silent { s with settings := s.settings.ofImage m } := .of_eq rfl
    exact (hset.trans (installWindows_silent _ 0 m.windows)).trans (endBoot_silent ..)
  · exact endBoot_silent ..

theorem deviceReset_silent (cause : ResetCause) : s.Silent (s.deviceReset cause) := by
  refine ⟨fun n w b hb => ?_⟩
  have hr : State.reset.noticeOf n w = some b := by cases cause <;> exact hb
  simp [State.noticeOf, grant_reset] at hr

end Withdrawals

end Sys2Proof.Machine
end

section
/-! SUPPORT. The notice number a port gives is one that no grant of the node holds; every step keeps them distinct
(R72, R112). -/

namespace Sys2Proof.Machine

/-! ### The number given (R72) -/

theorem numberHeld_iff {s : State} {n : NodeId} {number : Byte} :
    s.numberHeld n number = true ↔ ∃ w, s.noticeOf n w = some number := by
  simp [State.numberHeld]

/-- The search passes over held numbers only. -/
theorem held_of_freeNumber_held (s : State) (n : NodeId) (k : Nat) (c : Byte)
    (h : s.numberHeld n (s.freeNumber n k c) = true) (i : Nat) (hi : i ≤ k) :
    s.numberHeld n (c + BitVec.ofNat 8 i) = true := by
  induction k generalizing c i with
  | zero =>
    obtain rfl : i = 0 := by omega
    simpa [State.freeNumber] using h
  | succ k ih =>
    unfold State.freeNumber at h
    split at h
    · rename_i hc
      cases i with
      | zero => simpa using hc
      | succ i =>
        have hshift : c + BitVec.ofNat 8 (i + 1) = c + 1 + BitVec.ofNat 8 i := by
          rw [BitVec.ofNat_add, BitVec.add_comm (BitVec.ofNat 8 i), ← BitVec.add_assoc]
          rfl
        rw [hshift]
        exact ih (c + 1) h i (by omega)
    · contradiction

/-- A node has 64 windows to hold numbers by, so that one of 65 numbers is free (R72). -/
theorem noticeNumber_free (s : State) (n : NodeId) : s.numberHeld n (s.noticeNumber n) = false := by
  by_contra hfree
  have hall := held_of_freeNumber_held s n 256 (s.port n).counter (Bool.eq_true_of_not_eq_false hfree)
  choose holder hholder using fun i : Fin 65 => numberHeld_iff.1 (hall i.val (by omega))
  obtain ⟨i, j, hne, hij⟩ := Fintype.exists_ne_map_eq_of_card_lt holder (by simp [WindowId])
  have hnumbers := (hholder i).symm.trans ((congrArg (s.noticeOf n) hij).trans (hholder j))
  have hvalues := congrArg BitVec.toNat (Option.some.inj hnumbers)
  simp only [BitVec.toNat_add, BitVec.toNat_ofNat] at hvalues
  exact hne (Fin.ext (by omega))

/-! ### Notices and withdrawals -/

theorem noticeOf_revoking (v : Live) (n m : NodeId) (number : Byte) (deadline : Option Nat) :
    (v.updateGrant n fun g => { g with state := .revoking number deadline }).noticeOf m =
      if m = n then (v.grant m).map fun _ => number else v.noticeOf m := by
  unfold Live.noticeOf
  rw [grant_updateGrant v n m (fun g => { g with state := .revoking number deadline }) fun _ => rfl]
  split
  · cases v.grant m <;> rfl
  · rfl

/-- A grant made REVOKING holds the number it is given; every other grant keeps what it held (R114). -/
theorem noticeOf_made_revoking {s : State} {w x : WindowId} {n m : NodeId} {number given : Byte} {deadline : Option Nat}
    (h : (s.updateGrant w n fun g => { g with state := .revoking given deadline }).noticeOf m x = some number) :
    s.noticeOf m x = some number ∨ (m = n ∧ x = w ∧ number = given) := by
  rw [noticeOf_eq, State.updateGrant, life_updateLive] at h
  rw [noticeOf_eq]
  split at h
  · rename_i hx
    rw [Option.bind_map] at h
    obtain ⟨v, hv, hn⟩ := Option.bind_eq_some_iff.1 h
    simp only [Function.comp, noticeOf_revoking] at hn
    split at hn
    · rename_i hm
      obtain ⟨g, -, hg⟩ := Option.map_eq_some_iff.1 hn
      exact .inr ⟨hm, hx.symm, hg.symm⟩
    · exact .inl (by rw [hv]; exact hn)
  · exact .inl h

/-- A notice gives its grant the free number; every other grant keeps what it held (R114, R72). -/
theorem noticeOf_sendNotice {s : State} {w x : WindowId} {v : Live} {n m : NodeId} {g : GrantRecord} {number : Byte}
    (h : (s.sendNotice w v n g).noticeOf m x = some number) :
    s.noticeOf m x = some number ∨ (m = n ∧ x = w ∧ number = s.noticeNumber n) := by
  have hgiven := noticeOf_made_revoking h
  rwa [send_noticeOf, setPort_noticeOf] at hgiven

namespace State.NoticesDistinct

variable {s : State} (h : s.NoticesDistinct)
include h

/-- A notice with a free number keeps the numbers of its node distinct (R72). -/
theorem sendNotice (w : WindowId) (v : Live) (n : NodeId) (g : GrantRecord) :
    (s.sendNotice w v n g).NoticesDistinct := by
  have hfree : ∀ x, s.noticeOf n x ≠ some (s.noticeNumber n) := by
    intro x hx
    simpa [noticeNumber_free] using numberHeld_iff.2 ⟨x, hx⟩
  intro m a b number ha hb
  have hgiven : ∀ x, (s.sendNotice w v n g).noticeOf m x = some number →
      s.noticeOf m x = some number ∨ (m = n ∧ x = w ∧ number = s.noticeNumber n) := fun _ => noticeOf_sendNotice
  rcases hgiven a ha with ha' | ⟨rfl, rfl, rfl⟩
  · rcases hgiven b hb with hb' | ⟨rfl, rfl, rfl⟩
    · exact h m a b number ha' hb'
    · exact absurd ha' (hfree a)
  · rcases hgiven b hb with hb' | ⟨-, rfl, -⟩
    · exact absurd hb' (hfree b)
    · rfl

theorem withdraw (w : WindowId) (v : Live) (n : NodeId) (g : GrantRecord) : (s.withdraw w v n g).NoticesDistinct := by
  unfold State.withdraw
  split
  · exact h.sendNotice w v n g
  · exact h.silent (unlist_silent s w n)

theorem retireGrant (w : WindowId) (n : NodeId) : (State.retireGrant w s n).NoticesDistinct := by
  unfold State.retireGrant
  split
  · exact h
  · split
    · exact h.withdraw w _ n _
    · exact h
    · exact h

/-- A retirement withdraws its grants one after the other, each with the number then free (R125). -/
theorem retire (w : WindowId) : (s.retire w).NoticesDistinct := by
  have hgrants : ∀ (l : List NodeId) {s : State}, s.NoticesDistinct →
      (l.foldl (State.retireGrant w) s).NoticesDistinct := by
    intro l
    induction l with
    | nil => exact fun hs => hs
    | cons n l ih => exact fun hs => ih (hs.retireGrant w n)
  have hbegun : s.Silent (s.updateLive w fun v => { v with state := .retiring, quietPending := false }) :=
    .of_eq (updateLive_noticeOf s w fun _ => rfl)
  have hfaulted := hbegun.trans
    (.foldl (fun s n => .of_eq (faultHeld_noticeOf s n (fun e => e.window == w) .windowRetired)) allNodes _)
  exact (hgrants allNodes (h.silent hfaulted)).silent (retireIfEmpty_silent _ w)

/-! ### Commands -/

variable (p : Vector Word 8)

theorem completeCreateWindow : (completeCreateWindow p s).state.NoticesDistinct := by
  unfold Machine.completeCreateWindow
  split
  · exact h
  · split
    · exact h
    · split
      · exact h
      · split
        · exact h
        · split
          · split <;> exact h
          · exact h.silent (makeWindow_silent ..)

theorem completeGrant : (completeGrant p s).state.NoticesDistinct := by
  unfold Machine.completeGrant
  split
  · exact h
  · split
    · exact h
    · exact h
    · split_ifs
      · exact h
      · exact h
      · unfold placeGrant
        split
        · exact h
        · split_ifs
          · exact h
          · split
            · exact h
            · exact h.silent (addGrant_silent ..)

/-- Rights are no part of a notice (R48). -/
theorem completeSetRights : (completeSetRights p s).state.NoticesDistinct := by
  unfold Machine.completeSetRights
  split
  · exact h
  · rename_i w v _
    split
    · exact h
    · exact h
    · rename_i n r _ _
      split
      · exact h
      · split_ifs
        · exact h
        · refine h.silent (.updateLive s w fun u m b hb => ?_)
          unfold Live.noticeOf at hb ⊢
          rw [grant_updateGrant u n m (fun g => { g with rights := r }) fun _ => rfl] at hb
          split at hb
          · cases hg : u.grant m with
            | none => simp [hg] at hb
            | some g => simpa [hg] using hb
          · exact hb

theorem completeAdmitNode : (completeAdmitNode p s).state.NoticesDistinct := by
  unfold Machine.completeAdmitNode
  split
  · exact h
  · split
    · exact h.of_eq ((send_noticeOf ..).trans (setLink_noticeOf ..))
    · exact h

theorem completeFenceNode : (completeFenceNode p s).state.NoticesDistinct := by
  unfold Machine.completeFenceNode
  split
  · exact h
  · split
    · exact h.of_eq (enterFencing_noticeOf ..)
    · exact h

theorem completeRevoke : (completeRevoke p s).state.NoticesDistinct := by
  unfold Machine.completeRevoke
  split
  · exact h
  · split
    · exact h
    · split
      · exact h
      · split
        · exact h
        · exact h
        · split <;> exact h.withdraw _ _ _ _

theorem completeRetire : (completeRetire p s).state.NoticesDistinct := by
  unfold Machine.completeRetire
  split
  · exact h
  · simp only [carriedOut]
    exact h.retire _

theorem completeMigrate : (completeMigrate p s).state.NoticesDistinct := by
  unfold Machine.completeMigrate
  split
  · exact h
  · split
    · exact h
    · split
      · exact h
      · split
        · exact h
        · split
          · split <;> exact h
          · exact h.of_eq (migrate_noticeOf ..)

theorem completeAbortJob : (completeAbortJob p s).state.NoticesDistinct := by
  unfold Machine.completeAbortJob
  split
  · exact h
  · split
    · exact h.of_eq (enterAborting_noticeOf ..)
    all_goals exact h

theorem completeAckAttention : (completeAckAttention p s).state.NoticesDistinct := by
  unfold Machine.completeAckAttention
  split
  · simp only []
    split
    · exact h
    · exact h.of_eq (ackSource_noticeOf ..)
  · exact h

theorem completeSuspend : (completeSuspend p s).state.NoticesDistinct := by
  unfold Machine.completeSuspend
  split
  · exact h
  · exact h.of_eq (suspend_noticeOf ..)

theorem completeResume : (completeResume p s).state.NoticesDistinct := by
  unfold Machine.completeResume
  split
  · exact h
  · simp only [carriedOut]
    exact h.of_eq (resume_noticeOf ..)

/-- Every command's completion keeps notice numbers distinct. -/
theorem complete (c : Cmd) : (complete c p s).state.NoticesDistinct := by
  cases c with
  | nop => exact h
  | identify => exact h
  | setTimers =>
    simp only [Machine.complete, completeSetTimers]
    split <;> exact h
  | setPolicy =>
    simp only [Machine.complete, completeSetPolicy]
    split <;> exact h
  | getAttention => exact (completeGetAttention_state p s).symm ▸ h
  | ackAttention => exact h.completeAckAttention p
  | createWindow => exact h.completeCreateWindow p
  | queryWindow => exact (completeQueryWindow_state p s).symm ▸ h
  | queryFree => exact (completeQueryFree_state p s).symm ▸ h
  | grant => exact h.completeGrant p
  | setRights => exact h.completeSetRights p
  | queryGrant => exact (completeQueryGrant_state p s).symm ▸ h
  | lookup => exact (completeLookup_state p s).symm ▸ h
  | admitNode => exact h.completeAdmitNode p
  | fenceNode => exact h.completeFenceNode p
  | readFaultCapture => exact (completeReadFaultCapture_state p s).symm ▸ h
  | releaseFaultCapture =>
    simp only [Machine.complete, completeReleaseFaultCapture]
    split
    · exact h
    · exact h.of_eq (setCapture_noticeOf ..)
  | suspend => exact h.completeSuspend p
  | resume => exact h.completeResume p
  | revoke => exact h.completeRevoke p
  | retire => exact h.completeRetire p
  | migrate => exact h.completeMigrate p
  | abortJob => exact h.completeAbortJob p
  | queryJob => exact (completeQueryJob_state p s).symm ▸ h

theorem runTaken (t : Taken) : (runTaken t s).close.NoticesDistinct := by
  have hrun : (Machine.runTaken t s).state.NoticesDistinct := by
    unfold Machine.runTaken
    split
    · exact h.complete t.params _
    · exact h
  exact hrun

end State.NoticesDistinct

/-! ### Events and steps -/

/-- What an event other than a command's taking or completion does gives no notice number. -/
theorem exec_event_silent {s t : State} {i : Instr} (hc : commandRow i = none) (hd : i ≠ .commandCompletion)
    (ht : exec i s = .next t) : s.Silent t := by
  have hcontrol : ∀ value : Word, s.Silent (s.writeControl value) := fun value => .of_eq (writeControl_noticeOf ..)
  cases i with
  | paramWrite slot value =>
    simp only [exec, execParamWrite] at ht
    exact Enduring.event (.refl s) (.of_eq (writeSlot_noticeOf ..)) ht
  | clearOverrun value =>
    simp only [exec, execClearOverrun] at ht
    exact Enduring.event (.refl s) (hcontrol value) ht
  | clearCmdDone value =>
    simp only [exec, execClearCmdDone] at ht
    exact Enduring.event (.refl s) (hcontrol value) ht
  | softReset value =>
    simp only [exec, execSoftReset] at ht
    exact Enduring.event (.refl s) (hcontrol value) ht
  | deviceReset cause =>
    obtain rfl := Host.Outcome.next.inj ht
    exact deviceReset_silent s cause
  | resetRelease psz booten =>
    obtain rfl := Host.Outcome.next.inj ht
    split
    · exact .of_eq rfl
    · exact .refl s
  | bootInstall eeprom =>
    simp only [exec, execBootInstall] at ht
    refine Enduring.event (.refl s) ?_ ht
    split
    · exact install_silent s eeprom
    · exact .refl s
  | linkUp n =>
    simp only [exec, execLinkUp] at ht
    refine Enduring.event (.refl s) ?_ ht
    split
    · exact .of_eq (setLink_noticeOf ..)
    · exact .refl s
  | linkDown n =>
    simp only [exec, execLinkDown] at ht
    refine Enduring.event (.refl s) ?_ ht
    split
    · exact .refl s
    · exact (dropNode_silent s n).trans (.of_eq rfl)
  | hello n identity =>
    simp only [exec, execHello] at ht
    exact Enduring.event (.refl s) (hello_silent s n identity) ht
  | read n u addr len =>
    simp only [exec, execRead] at ht
    exact Enduring.event (.refl s) (.of_eq (arrive_noticeOf ..)) ht
  | write n u addr len data =>
    simp only [exec, execWrite] at ht
    refine Enduring.event (.refl s) ?_ ht
    split
    · exact .of_eq (arrive_noticeOf ..)
    · exact .of_eq (malformed_noticeOf ..)
  | revokeAck n number =>
    simp only [exec, execRevokeAck] at ht
    exact Enduring.event (.refl s) (acknowledge_silent s n number) ht
  | malformedMessage n bytes =>
    simp only [exec, execMalformedMessage] at ht
    refine Enduring.event (.refl s) ?_ ht
    split
    · exact .of_eq (malformed_noticeOf ..)
    · exact deliver_silent s n _
  | handToLinkLayer n =>
    simp only [exec, execHandToLinkLayer] at ht
    refine Enduring.event (.refl s) ?_ ht
    split
    · exact .refl s
    · exact .of_eq (setPort_noticeOf ..)
  | transactionOperationEnd c dramFault =>
    simp only [exec, execTransactionOperationEnd] at ht
    refine Enduring.event (.refl s) ?_ ht
    split
    · exact .refl s
    · split
      · exact .refl s
      · split
        · exact .refl s
        · exact .trans (.of_eq (endOp_noticeOf ..)) (operationEnded_silent ..)
  | holdExpiry n =>
    simp only [exec, execHoldExpiry] at ht
    refine Enduring.event (.refl s) ?_ ht
    split
    · exact .refl s
    · split
      · exact .refl s
      · rename_i hu
        exact .of_eq ((expireHolds_noticeOf ..).trans (reach_noticeOf hu))
  | revokeDeadline w n =>
    simp only [exec, execRevokeDeadline] at ht
    refine Enduring.event (.refl s) ?_ ht
    split
    · exact .refl s
    · split
      · exact .refl s
      · rename_i hu
        exact .trans (.of_eq (reach_noticeOf hu)) (forceRemoval_silent _ w n)
  | copyReadEnd dramFault =>
    simp only [exec, execCopyReadEnd] at ht
    refine Enduring.event (.refl s) ?_ ht
    split
    · split
      · exact .refl s
      · exact .of_eq ((copyReadEnded_noticeOf ..).trans (endOp_noticeOf ..))
    all_goals exact .refl s
  | copyWriteEnd dramFault =>
    simp only [exec, execCopyWriteEnd] at ht
    refine Enduring.event (.refl s) ?_ ht
    split
    · split
      · exact .refl s
      · exact .of_eq ((copyWriteEnded_noticeOf ..).trans (endOp_noticeOf ..))
    all_goals exact .refl s
  | pacingEnd =>
    simp only [exec, execPacingEnd] at ht
    refine Enduring.event (.refl s) ?_ ht
    split
    · split
      · exact .refl s
      · rename_i hu
        exact .of_eq ((startTurn_noticeOf _).trans ((setPhase_noticeOf ..).trans (reach_noticeOf hu)))
    all_goals exact .refl s
  | commandCompletion => exact absurd rfl hd
  | _ => simp [commandRow] at hc

theorem State.NoticesDistinct.exec {s t : State} (h : s.NoticesDistinct) (i : Instr) (ht : exec i s = .next t) :
    t.NoticesDistinct := by
  cases hc : commandRow i with
  | some code =>
    rw [exec_of_commandRow hc] at ht
    exact Enduring.event h (h.of_eq (writeCommand_noticeOf s code)) ht
  | none =>
    by_cases hd : i = .commandCompletion
    · subst hd
      simp only [Machine.exec, execCommandCompletion] at ht
      refine Enduring.event h ?_ ht
      split
      · exact h
      · exact h.runTaken _
    · exact h.silent (exec_event_silent hc hd ht)

/-- Settles O57: a notice takes a free number, and nothing else gives one. -/
theorem stepKeepsNoticesDistinct : Obligations.StepKeepsNoticesDistinct := by
  intro s t h ht
  unfold step at ht
  split at ht
  · obtain rfl := Host.Outcome.next.inj ht
    exact h.of_eq (tick_noticeOf s)
  · rename_i i rest _
    have hpopped : ({ s with pending := rest } : State).NoticesDistinct := h
    exact hpopped.exec i ht

end Sys2Proof.Machine
end

section
/-! SUPPORT. The unlisting of a grant whose node holds nothing: the window it leaves, the extent it frees and the flags
it raises (R116, R122, R126). -/

namespace Sys2Proof.Machine

/-! ### What a removal cannot touch -/

/-- A state with the records that the removal of grants can touch, the node maps apart, set aside. -/
def State.beyondRemovals (s : State) : State :=
  { s with
    windows := State.reset.windows
    freeList := State.reset.freeList
    attention := State.reset.attention }

@[simp] theorem raise_removals (s : State) (f : Flag) : (s.raise f).beyondRemovals = s.beyondRemovals := rfl

@[simp] theorem updateLive_removals (s : State) (w : WindowId) (f : Live → Live) :
    (s.updateLive w f).beyondRemovals = s.beyondRemovals := by
  unfold State.updateLive
  split <;> rfl

@[simp] theorem retireIfEmpty_removals (s : State) (w : WindowId) :
    (s.retireIfEmpty w).beyondRemovals = s.beyondRemovals := by
  unfold State.retireIfEmpty
  split
  · rfl
  · split <;> rfl

@[simp] theorem removeIfDrained_removals (s : State) (w : WindowId) (n : NodeId) :
    (s.removeIfDrained w n).beyondRemovals = s.beyondRemovals := by
  unfold State.removeIfDrained
  split
  · rfl
  · split
    · simp [State.removeGrant]
    · rfl

theorem freeList_updateLive (s : State) (w : WindowId) (f : Live → Live) :
    (s.updateLive w f).freeList = s.freeList := by
  unfold State.updateLive
  split <;> rfl

theorem reasons_updateLive (s : State) (w : WindowId) (f : Live → Live) (i : Fin 73) :
    (s.updateLive w f).reasons i = s.reasons i := by
  unfold State.updateLive
  split <;> rfl

section OfRemovals

variable {s t : State} (h : t.beyondRemovals = s.beyondRemovals)
include h

theorem hold_of_removals : t.hold = s.hold := funext fun n => (congrArg (fun u : State => u.hold n) h :)
theorem map_of_removals : t.map = s.map := funext fun n => (congrArg (fun u : State => u.map n) h :)
theorem port_of_removals : t.port = s.port := funext fun n => (congrArg (fun u : State => u.port n) h :)
theorem tag_of_removals : t.tag = s.tag := funext₂ fun n u => (congrArg (fun x : State => x.tag n u) h :)
theorem transactions_of_removals : t.transactions = s.transactions := (congrArg State.transactions h :)
theorem captures_of_removals : t.captures = s.captures := (congrArg State.captures h :)
theorem channels_of_removals : t.channels = s.channels := (congrArg State.channels h :)
theorem pool_of_removals : t.pool = s.pool := (congrArg State.pool h :)
theorem slots_of_removals : t.slots = s.slots := (congrArg State.slots h :)
theorem engine_of_removals : t.engine = s.engine := (congrArg State.engine h :)

end OfRemovals

/-! ### The completion of a retirement (R126) -/

theorem window_completeRetirement (s : State) (w x : WindowId) (v : Live) :
    (s.completeRetirement w v).window x =
      if w = x then { generation := (s.window w).generation + 1, life := none } else s.window x :=
  window_setWindow ..

theorem isPending_completeRetirement_of {s : State} {f : Flag} (h : s.isPending f = true) (w : WindowId) (v : Live) :
    (s.completeRetirement w v).isPending f = true := isPending_raise_of _ f _ h

theorem isPending_retireDone (s : State) (w : WindowId) (v : Live) :
    (s.completeRetirement w v).isPending (.retireDone w) = true := isPending_raise ..

/-! ### One unlisting -/

/-- A grant out of its map and out of its window's list, with GRANT_REMOVED (R116, R122). -/
def State.takeOut (s : State) (w : WindowId) (n : NodeId) : State :=
  ((s.delist w n).updateLive w fun v => { v with grants := v.grants.filter fun g => g.node != n }).raise
    (.grantRemoved w)

theorem filter_updateGrant (v : Live) (n : NodeId) {f : GrantRecord → GrantRecord} (hf : ∀ g, (f g).node = g.node) :
    ((v.updateGrant n f).grants.filter fun g => g.node != n) = v.grants.filter fun g => g.node != n := by
  simp only [Live.updateGrant]
  induction v.grants with
  | nil => rfl
  | cons g l ih =>
    by_cases hg : g.node = n
    · simp [hg, hf, ih]
    · simp [hg, ih]

/-- A window loses its last grant when all its grants are the node's. -/
theorem filter_ne_eq_nil_iff (l : List GrantRecord) (n : NodeId) :
    (l.filter fun g => g.node != n) = [] ↔ ∀ g ∈ l, g.node = n := by
  simp [List.filter_eq_nil_iff]

section One

variable {s : State} {w : WindowId} {n : NodeId}

/-- With nothing held there is nothing to fault in an unlisting. -/
theorem unlist_of_no_holds (hh : s.hold n = []) (w : WindowId) :
    s.unlist w n = (s.delist w n).removeIfDrained w n := by
  have hd : (s.delist w n).hold n = [] := by
    rw [State.delist, State.updateGrant, updateLive_hold, setMap_hold, hh]
  rw [unlist_eq, State.faultHeld, hd, List.filter_nil, List.filter_nil, List.foldl_nil, ← hd, setHold_self]

theorem window_delist (s : State) (w x : WindowId) (n : NodeId) :
    (s.delist w n).window x =
      if w = x then
        { s.window x with
          life := (s.window x).life.map fun v => v.updateGrant n fun g => { g with state := .draining } }
      else s.window x := window_updateLive ..

theorem window_takeOut (s : State) (w x : WindowId) (n : NodeId) :
    (s.takeOut w n).window x =
      if w = x then
        { s.window x with
          life := (s.window x).life.map fun v => { v with grants := v.grants.filter fun g => g.node != n } }
      else s.window x := by
  rw [State.takeOut, State.raise, setReasons_window, window_updateLive, window_delist]
  split
  · simp only [Option.map_map]
    congr 2
    funext v
    simp only [Function.comp]
    congr 1
    exact filter_updateGrant v n fun _ => rfl
  · rfl

variable {v : Live} {g : GrantRecord}

theorem grant_delist (hg : s.grant w n = some (v, g)) :
    (s.delist w n).grant w n =
      some (v.updateGrant n fun g => { g with state := .draining }, { g with state := .draining }) := by
  obtain ⟨hv, hgn⟩ := grant_eq_some_iff.1 hg
  refine grant_eq_some_iff.2 ⟨by rw [window_delist, if_pos rfl, hv]; rfl, ?_⟩
  rw [grant_updateGrant v n n (fun g => { g with state := .draining }) fun _ => rfl, if_pos rfl, hgn]
  rfl

/-- The window whose retirement the unlisting of its grant for a node completes (R122, R126). -/
def State.freedBy (s : State) (n : NodeId) (w : WindowId) : Option Live :=
  match s.grant w n with
  | none => none
  | some (v, g) =>
    if v.state = .retiring ∧ (∀ k ∈ v.grants, k.node = n) ∧ g.executing = 0 then some v else none

theorem freedBy_eq_some_iff {u : Live} :
    s.freedBy n w = some u ↔ u.state = .retiring ∧ (∀ k ∈ u.grants, k.node = n) ∧
      ∃ g, s.grant w n = some (u, g) ∧ g.executing = 0 := by
  unfold State.freedBy
  cases hg : s.grant w n with
  | none => simp
  | some vg =>
    obtain ⟨v, g⟩ := vg
    simp only [Option.ite_none_right_eq_some, Option.some.injEq, Prod.mk.injEq]
    constructor
    · rintro ⟨⟨hr, ha, hx⟩, rfl⟩
      exact ⟨hr, ha, g, ⟨rfl, rfl⟩, hx⟩
    · rintro ⟨hr, ha, g', ⟨rfl, rfl⟩, hx⟩
      exact ⟨⟨hr, ha, hx⟩, rfl⟩

section Outcomes

variable (hh : s.hold n = []) (hg : s.grant w n = some (v, g))
include hh hg

/-- A grant under which something executes is DRAINING and stays (R116). -/
theorem unlist_executing (hx : g.executing ≠ 0) : s.unlist w n = s.delist w n := by
  rw [unlist_of_no_holds hh, State.removeIfDrained, grant_delist hg]
  exact if_neg fun hc => hx hc.2

/-- A grant under which nothing executes is removed at once (R122). -/
theorem unlist_drained (hx : g.executing = 0) : s.unlist w n = (s.takeOut w n).retireIfEmpty w := by
  rw [unlist_of_no_holds hh, State.removeIfDrained, grant_delist hg]
  exact if_pos ⟨rfl, hx⟩

omit hh in
theorem life_takeOut :
    ((s.takeOut w n).window w).life = some { v with grants := v.grants.filter fun g => g.node != n } := by
  rw [window_takeOut, if_pos rfl, (grant_eq_some_iff.1 hg).1]
  rfl

/-- A window that is not RETIRING, or that another node has a grant of, stays in use (R122). -/
theorem unlist_kept (hx : g.executing = 0) (hk : v.state ≠ .retiring ∨ ∃ k ∈ v.grants, k.node ≠ n) :
    s.unlist w n = s.takeOut w n := by
  rw [unlist_drained hh hg hx, State.retireIfEmpty, life_takeOut hg]
  refine if_neg fun ⟨hr, he⟩ => ?_
  rcases hk with hk | ⟨k, hk, hne⟩
  · exact hk hr
  · exact hne ((filter_ne_eq_nil_iff _ n).1 he k hk)

/-- A RETIRING window that is left without grants is freed (R122, R126). -/
theorem unlist_freed (hx : g.executing = 0) (hr : v.state = .retiring) (ha : ∀ k ∈ v.grants, k.node = n) :
    s.unlist w n =
      (s.takeOut w n).completeRetirement w { v with grants := v.grants.filter fun g => g.node != n } := by
  rw [unlist_drained hh hg hx, State.retireIfEmpty, life_takeOut hg]
  exact if_pos ⟨hr, (filter_ne_eq_nil_iff _ n).2 ha⟩

/-- What an unlisting can do: the grant drains, or is removed, or is removed and frees its window. -/
theorem unlist_cases :
    (g.executing ≠ 0 ∧ s.freedBy n w = none ∧ s.unlist w n = s.delist w n) ∨
      (g.executing = 0 ∧ s.freedBy n w = none ∧ s.unlist w n = s.takeOut w n) ∨
      (g.executing = 0 ∧ s.freedBy n w = some v ∧ s.unlist w n =
        (s.takeOut w n).completeRetirement w { v with grants := v.grants.filter fun g => g.node != n }) := by
  by_cases hx : g.executing = 0
  · by_cases hc : v.state = .retiring ∧ ∀ k ∈ v.grants, k.node = n
    · exact .inr (.inr ⟨hx, freedBy_eq_some_iff.2 ⟨hc.1, hc.2, g, hg, hx⟩, unlist_freed hh hg hx hc.1 hc.2⟩)
    · refine .inr (.inl ⟨hx, ?_, unlist_kept hh hg hx ?_⟩)
      · simp only [State.freedBy, hg]
        exact if_neg fun h => hc ⟨h.1, h.2.1⟩
      · by_contra hn
        push Not at hn
        exact hc hn
  · refine .inl ⟨hx, ?_, unlist_executing hh hg hx⟩
    simp only [State.freedBy, hg]
    exact if_neg fun h => hx h.2.2

/-- An unlisting leaves every other window as it was. -/
theorem window_unlist_of_ne {x : WindowId} (hne : w ≠ x) : (s.unlist w n).window x = s.window x := by
  rcases unlist_cases hh hg with ⟨-, -, h⟩ | ⟨-, -, h⟩ | ⟨-, -, h⟩
  · rw [h, window_delist, if_neg hne]
  · rw [h, window_takeOut, if_neg hne]
  · rw [h, window_completeRetirement, if_neg hne, window_takeOut, if_neg hne]

/-- An unlisting releases the extent of the window it frees (R126). -/
theorem freeList_unlist :
    (s.unlist w n).freeList = (s.freedBy n w).elim s.freeList fun v => release v.home s.freeList := by
  have hdelist : (s.delist w n).freeList = s.freeList := freeList_updateLive ..
  have htake : (s.takeOut w n).freeList = s.freeList := (freeList_updateLive ..).trans hdelist
  rcases unlist_cases hh hg with ⟨-, hf, h⟩ | ⟨-, hf, h⟩ | ⟨-, hf, h⟩
  · rw [h, hf, hdelist]
    rfl
  · rw [h, hf, htake]
    rfl
  · rw [h, hf, Option.elim_some, ← htake]
    rfl

/-- A flag that is pending stays pending through an unlisting (R156). -/
theorem isPending_unlist_of {f : Flag} (hf : s.isPending f = true) : (s.unlist w n).isPending f = true := by
  have hdelist : (s.delist w n).isPending f = true := by
    rw [State.isPending, State.delist, State.updateGrant, reasons_updateLive, setMap_reasons]
    exact hf
  have htake : (s.takeOut w n).isPending f = true := by
    rw [State.takeOut]
    refine isPending_raise_of _ f _ ?_
    rw [State.isPending, reasons_updateLive]
    exact hdelist
  rcases unlist_cases hh hg with ⟨-, -, h⟩ | ⟨-, -, h⟩ | ⟨-, -, h⟩
  · rw [h]
    exact hdelist
  · rw [h]
    exact htake
  · rw [h]
    exact isPending_completeRetirement_of htake w _

/-- A removal raises GRANT_REMOVED (R122). -/
theorem isPending_unlist_removed (hx : g.executing = 0) : (s.unlist w n).isPending (.grantRemoved w) = true := by
  have htake : (s.takeOut w n).isPending (.grantRemoved w) = true := isPending_raise ..
  rcases unlist_cases hh hg with ⟨hne, -, -⟩ | ⟨-, -, h⟩ | ⟨-, -, h⟩
  · exact absurd hx hne
  · rw [h]
    exact htake
  · rw [h]
    exact isPending_completeRetirement_of htake w _

end Outcomes

/-- With nothing held, an unlisting touches the node's map and what removals touch. -/
theorem unlist_removals (hh : s.hold n = []) (w : WindowId) :
    (s.unlist w n).beyondRemovals = (s.setMap n ((s.map n).filter fun x => x != w)).beyondRemovals := by
  rw [unlist_of_no_holds hh, removeIfDrained_removals, State.delist, State.updateGrant, updateLive_removals]

theorem hold_unlist (hh : s.hold n = []) (w : WindowId) : (s.unlist w n).hold = s.hold :=
  (hold_of_removals (unlist_removals hh w)).trans rfl

theorem map_unlist (hh : s.hold n = []) (w : WindowId) :
    (s.unlist w n).map n = (s.map n).filter fun x => x != w := by
  rw [map_of_removals (unlist_removals hh w), map_setMap, if_pos rfl]

end One

theorem grant_of_window {s t : State} {w : WindowId} (h : t.window w = s.window w) (n : NodeId) :
    t.grant w n = s.grant w n := by
  rw [State.grant, State.grant, h]

/-! ### The unlisting of several grants -/

/-- The unlisting of a node's grants of several windows, one after the other. -/
def State.unlistAll (s : State) (n : NodeId) (l : List WindowId) : State := l.foldl (fun s w => s.unlist w n) s

/-- A node that holds nothing, and windows, each named once, that have a grant for it. -/
structure State.Unlistable (s : State) (n : NodeId) (l : List WindowId) : Prop where
  holds : s.hold n = []
  once : l.Nodup
  granted : ∀ w ∈ l, (s.grant w n).isSome = true

section Several

variable {s : State} {n : NodeId}

theorem unlistAll_cons (s : State) (n : NodeId) (w : WindowId) (l : List WindowId) :
    s.unlistAll n (w :: l) = (s.unlist w n).unlistAll n l := rfl

/-- With nothing held, unlistings touch the node's map and what removals touch. -/
theorem unlistAll_removals (hh : s.hold n = []) (l : List WindowId) :
    (s.unlistAll n l).beyondRemovals =
      (s.setMap n ((s.map n).filter fun x => decide (x ∉ l))).beyondRemovals := by
  induction l generalizing s with
  | nil => simp [State.unlistAll, State.setMap, State.map]
  | cons w l ih =>
    have hset : ∀ (t u : State) (m : List WindowId), t.beyondRemovals = u.beyondRemovals →
        (t.setMap n m).beyondRemovals = (u.setMap n m).beyondRemovals :=
      fun t u m h => congrArg (fun x : State => x.setMap n m) h
    have hfilter : ((s.map n).filter fun x => decide (x ∉ l) && x != w) =
        (s.map n).filter fun x => decide (x ∉ w :: l) := by
      congr 1
      funext x
      by_cases hx : x = w <;> simp [hx]
    rw [unlistAll_cons, ih ((congrFun (hold_unlist hh w) n).trans hh), hset _ _ _ (unlist_removals hh w),
      map_unlist hh, List.filter_filter, hfilter]
    simp [State.setMap]

namespace State.Unlistable

variable {w : WindowId} {l : List WindowId}

theorem head (h : s.Unlistable n (w :: l)) : ∃ v g, s.grant w n = some (v, g) := by
  obtain ⟨vg, hg⟩ := Option.isSome_iff_exists.1 (h.granted w (List.mem_cons_self ..))
  exact ⟨vg.1, vg.2, hg⟩

/-- The first unlisting leaves every other window as it was. -/
theorem window_of_ne (h : s.Unlistable n (w :: l)) {x : WindowId} (hx : w ≠ x) :
    (s.unlist w n).window x = s.window x := by
  obtain ⟨v, g, hg⟩ := h.head
  exact window_unlist_of_ne h.holds hg hx

theorem ne_of_mem (h : s.Unlistable n (w :: l)) {x : WindowId} (hx : x ∈ l) : w ≠ x :=
  fun hwx => (List.nodup_cons.1 h.once).1 (hwx ▸ hx)

theorem tail (h : s.Unlistable n (w :: l)) : (s.unlist w n).Unlistable n l where
  holds := (congrFun (hold_unlist h.holds w) n).trans h.holds
  once := (List.nodup_cons.1 h.once).2
  granted x hx := by
    rw [grant_of_window (h.window_of_ne (h.ne_of_mem hx))]
    exact h.granted x (List.mem_cons_of_mem _ hx)

/-- A window whose grant is not unlisted stays as it was. -/
theorem window_of_not_mem (h : s.Unlistable n l) {x : WindowId} (hx : x ∉ l) :
    (s.unlistAll n l).window x = s.window x := by
  induction l generalizing s with
  | nil => rfl
  | cons w l ih =>
    rw [unlistAll_cons, ih h.tail fun hxl => hx (List.mem_cons_of_mem _ hxl),
      h.window_of_ne fun hwx => hx (hwx ▸ List.mem_cons_self ..)]

/-- A flag that is pending stays pending through the unlistings (R156). -/
theorem isPending_of (h : s.Unlistable n l) {f : Flag} (hf : s.isPending f = true) :
    (s.unlistAll n l).isPending f = true := by
  induction l generalizing s with
  | nil => exact hf
  | cons w l ih =>
    obtain ⟨v, g, hg⟩ := h.head
    exact ih h.tail (isPending_unlist_of h.holds hg hf)

/-- The turn of a window: it is unlisted from what it was, and what that leaves of it and raises stays. -/
theorem turn (h : s.Unlistable n l) (hw : w ∈ l) : ∃ u : State, u.hold n = [] ∧ u.window w = s.window w ∧
    (s.unlistAll n l).window w = (u.unlist w n).window w ∧
    ∀ f, (u.unlist w n).isPending f = true → (s.unlistAll n l).isPending f = true := by
  induction l generalizing s with
  | nil => simp at hw
  | cons x l ih =>
    by_cases hx : x = w
    · subst hx
      exact ⟨s, h.holds, rfl, h.tail.window_of_not_mem (List.nodup_cons.1 h.once).1, fun f hf => h.tail.isPending_of hf⟩
    · obtain ⟨u, hu, hwin, hrest⟩ := ih h.tail ((List.mem_cons.1 hw).resolve_left fun hwx => hx hwx.symm)
      exact ⟨u, hu, hwin.trans (h.window_of_ne hx), hrest⟩

/-- The extents of the windows that are freed are released in the order of the unlistings (R126). -/
theorem freeList (h : s.Unlistable n l) :
    (s.unlistAll n l).freeList = (l.filterMap (s.freedBy n)).foldl (fun f v => Machine.release v.home f) s.freeList := by
  induction l generalizing s with
  | nil => rfl
  | cons w l ih =>
    obtain ⟨v, g, hg⟩ := h.head
    have hsame : l.filterMap ((s.unlist w n).freedBy n) = l.filterMap (s.freedBy n) := by
      refine List.filterMap_congr fun x hx => ?_
      rw [State.freedBy, grant_of_window (h.window_of_ne (h.ne_of_mem hx)), State.freedBy]
    rw [unlistAll_cons, ih h.tail, hsame, freeList_unlist h.holds hg, List.filterMap_cons]
    cases s.freedBy n w <;> rfl

end State.Unlistable

end Several

/-! ### The pending revocations of a node (R112, R120) -/

theorem insertNotice_perm (x : Byte × WindowId) (l : List (Byte × WindowId)) : (insertNotice x l).Perm (x :: l) := by
  induction l with
  | nil => exact List.Perm.refl _
  | cons y l ih =>
    unfold insertNotice
    split
    · exact List.Perm.refl _
    · exact (ih.cons y).trans (List.Perm.swap x y l)

theorem pendingRevocations_perm (s : State) (n : NodeId) :
    (s.pendingRevocations n).Perm
      (allWindows.filterMap fun w => (s.noticeOf n w).map fun number => (number, w)) := by
  unfold State.pendingRevocations
  generalize (allWindows.filterMap fun w => (s.noticeOf n w).map fun number => (number, w)) = l
  induction l with
  | nil => exact List.Perm.refl _
  | cons x l ih => exact (insertNotice_perm x _).trans (ih.cons x)

/-- The windows of a node's pending revocations, in the order in which they are unlisted. -/
def State.revoked (s : State) (n : NodeId) : List WindowId := (s.pendingRevocations n).map Prod.snd

theorem unlistRevoking_eq (s : State) (n : NodeId) : s.unlistRevoking n = s.unlistAll n (s.revoked n) := by
  rw [State.unlistRevoking, State.unlistAll, State.revoked, List.foldl_map]

theorem revoked_perm (s : State) (n : NodeId) :
    (s.revoked n).Perm (allWindows.filter fun w => (s.noticeOf n w).isSome) := by
  refine ((pendingRevocations_perm s n).map Prod.snd).trans (List.Perm.of_eq ?_)
  induction allWindows with
  | nil => rfl
  | cons w l ih =>
    cases hw : s.noticeOf n w <;> simp [hw, ih]

theorem mem_revoked {s : State} {n : NodeId} {w : WindowId} : w ∈ s.revoked n ↔ (s.noticeOf n w).isSome = true := by
  simp [(revoked_perm s n).mem_iff]

/-- The windows of a node's pending revocations can be unlisted once the node holds nothing. -/
theorem unlistable_revoked {s : State} {n : NodeId} (hh : s.hold n = []) : s.Unlistable n (s.revoked n) where
  holds := hh
  once := (revoked_perm s n).nodup_iff.2 ((List.nodup_finRange 64).filter _)
  granted w hw := by
    have hnotice := mem_revoked.1 hw
    unfold State.noticeOf at hnotice
    split at hnotice
    · simp at hnotice
    · rename_i hg
      rw [hg]
      rfl

end Sys2Proof.Machine
end

section
/-! SUPPORT. The loss of a node: what a restart HELLO and a link down have in common, and what each adds (R65, R66,
R89, R107, R120). -/

namespace Sys2Proof.Machine

/-! ### The counts of the entries dropped -/

/-- A window after `k` entries of a node's hold queue that name it have left (R11). -/
def Live.dropHeld (v : Live) (n : NodeId) (k : Nat) : Live :=
  { v.updateGrant n (fun g => { g with held := g.held - k }) with held := v.held - k }

theorem lowerHeld_eq_dropHeld (s : State) (w : WindowId) (n : NodeId) :
    s.lowerHeld w n = s.updateLive w fun v => v.dropHeld n 1 := rfl

theorem dropHeld_zero (v : Live) (n : NodeId) : v.dropHeld n 0 = v := by
  simp [Live.dropHeld, Live.updateGrant]

theorem dropHeld_dropHeld (v : Live) (n : NodeId) (j k : Nat) :
    (v.dropHeld n j).dropHeld n k = v.dropHeld n (j + k) := by
  simp only [Live.dropHeld, Live.updateGrant, List.map_map, Nat.sub_sub]
  congr 1
  refine List.map_congr_left fun g _ => ?_
  by_cases hg : g.node = n <;> simp [hg, Nat.sub_sub]

theorem grant_dropHeld (v : Live) (n : NodeId) (k : Nat) :
    (v.dropHeld n k).grant n = (v.grant n).map fun g => { g with held := g.held - k } :=
  (grant_updateGrant v n n (fun g => { g with held := g.held - k }) fun _ => rfl).trans (if_pos rfl)

/-- Only the counts of grants change, so their nodes do not. -/
theorem nodes_dropHeld (v : Live) (n m : NodeId) (k : Nat) :
    (∀ g ∈ (v.dropHeld n k).grants, g.node = m) ↔ ∀ g ∈ v.grants, g.node = m := by
  have hnode : ∀ g : GrantRecord, (if g.node = n then { g with held := g.held - k } else g).node = g.node := by
    intro g
    split <;> rfl
  simp only [Live.dropHeld, Live.updateGrant, List.forall_mem_map, hnode]

/-- Entries that leave a hold queue lower the counts of each window as often as they name it (R11). -/
theorem window_foldl_lowerHeld (n : NodeId) (l : List HoldEntry) (s : State) (x : WindowId) :
    (l.foldl (fun s e => s.lowerHeld e.window n) s).window x =
      { s.window x with
        life := (s.window x).life.map fun v => v.dropHeld n (l.filter fun e => e.window == x).length } := by
  induction l generalizing s with
  | nil => simp [dropHeld_zero]
  | cons e l ih =>
    rw [List.foldl_cons, ih, lowerHeld_eq_dropHeld, window_updateLive]
    by_cases hx : e.window = x
    · simp [hx, Function.comp_def, dropHeld_dropHeld, Nat.add_comm]
    · simp [hx]

/-! ### A node without its tags and entries -/

/-- A node whose messages, tags and entries have gone, before its REVOKING grants are unlisted (R65, R66, R89, R107). -/
def State.shed (s : State) (n : NodeId) : State := ((s.clearOutbound n).abandonTags n).dropHolds n

theorem dropNode_eq (s : State) (n : NodeId) : s.dropNode n = (s.shed n).unlistAll n ((s.shed n).revoked n) :=
  unlistRevoking_eq ..

section Shed

variable (s : State) (n : NodeId)

theorem foldl_lowerHeld_removals (l : List HoldEntry) (s : State) :
    (l.foldl (fun s e => s.lowerHeld e.window n) s).beyondRemovals = s.beyondRemovals := by
  induction l generalizing s with
  | nil => rfl
  | cons e l ih => exact (ih _).trans (updateLive_removals ..)

theorem shed_removals :
    (s.shed n).beyondRemovals = (((s.clearOutbound n).abandonTags n).setHold n []).beyondRemovals :=
  foldl_lowerHeld_removals ..

theorem foldl_lowerHeld_freeList (l : List HoldEntry) (s : State) :
    (l.foldl (fun s e => s.lowerHeld e.window n) s).freeList = s.freeList := by
  induction l generalizing s with
  | nil => rfl
  | cons e l ih => exact (ih _).trans (freeList_updateLive ..)

theorem freeList_shed : (s.shed n).freeList = s.freeList := foldl_lowerHeld_freeList ..

theorem hold_shed : (s.shed n).hold n = [] := by
  rw [hold_of_removals (shed_removals s n), hold_setHold, if_pos rfl]

theorem window_shed (x : WindowId) :
    (s.shed n).window x =
      { s.window x with life := (s.window x).life.map fun v => v.dropHeld n (s.heldUnder x n).length } :=
  window_foldl_lowerHeld ..

theorem noticeOf_shed : (s.shed n).noticeOf = s.noticeOf := by simp [State.shed]

variable {s n}

theorem grant_shed (w : WindowId) :
    (s.shed n).grant w n = (s.grant w n).map fun vg =>
      (vg.1.dropHeld n (s.heldUnder w n).length, { vg.2 with held := vg.2.held - (s.heldUnder w n).length }) := by
  unfold State.grant
  rw [window_shed]
  cases (s.window w).life with
  | none => rfl
  | some v =>
    simp only [Option.map_some, grant_dropHeld]
    cases v.grant n <;> rfl

/-- The entries that leave do not decide which windows are freed. -/
theorem freedBy_shed (w : WindowId) :
    (s.shed n).freedBy n w = (s.freedBy n w).map fun v => v.dropHeld n (s.heldUnder w n).length := by
  unfold State.freedBy
  rw [grant_shed]
  cases s.grant w n with
  | none => rfl
  | some vg =>
    have hiff := nodes_dropHeld vg.1 n n (s.heldUnder w n).length
    simp only [Option.map_some, hiff]
    split_ifs with h1 h2 h2
    · rfl
    · exact absurd h1 h2
    · exact absurd h2 h1
    · rfl

/-- The windows that the loss of a node frees, with what they held (R122, R126). -/
def State.freedList (s : State) (n : NodeId) : List (WindowId × Live) :=
  ((s.shed n).revoked n).filterMap fun w => (s.freedBy n w).map fun v => (w, v)

theorem freedList_once : ((s.freedList n).map fun x => x.1).Nodup := by
  have hlist : (s.freedList n).map (fun x => x.1) =
      ((s.shed n).revoked n).filter fun w => (s.freedBy n w).isSome := by
    unfold State.freedList
    induction (s.shed n).revoked n with
    | nil => rfl
    | cons w l ih => cases hw : s.freedBy n w <;> simp [hw, ih]
  rw [hlist]
  exact (unlistable_revoked (hold_shed s n)).once.filter _

theorem noticeOf_isSome_iff {w : WindowId} :
    (s.noticeOf n w).isSome = true ↔
      ∃ v g number limit, s.grant w n = some (v, g) ∧ g.state = .revoking number limit := by
  unfold State.noticeOf
  cases hg : s.grant w n with
  | none => simp
  | some vg =>
    obtain ⟨v, g⟩ := vg
    cases hst : g.state <;> simp [GrantState.notice, hst]

theorem mem_revoked_shed {w : WindowId} : w ∈ (s.shed n).revoked n ↔ (s.noticeOf n w).isSome = true := by
  rw [mem_revoked, noticeOf_shed]

theorem mem_freedList {w : WindowId} {v : Live} :
    (w, v) ∈ s.freedList n ↔ v.state = .retiring ∧ (∀ k ∈ v.grants, k.node = n) ∧
      ∃ g number limit, s.grant w n = some (v, g) ∧ g.state = .revoking number limit ∧ g.executing = 0 := by
  simp only [State.freedList, List.mem_filterMap, Option.map_eq_some_iff, Prod.mk.injEq]
  constructor
  · rintro ⟨x, hx, u, hu, rfl, rfl⟩
    obtain ⟨hr, ha, g, hg, hx0⟩ := freedBy_eq_some_iff.1 hu
    obtain ⟨v', g', number, limit, hg', hst⟩ := noticeOf_isSome_iff.1 (mem_revoked_shed.1 hx)
    obtain ⟨-, rfl⟩ := Prod.mk.inj (Option.some.inj (hg'.symm.trans hg))
    exact ⟨hr, ha, g', number, limit, hg, hst, hx0⟩
  · rintro ⟨hr, ha, g, number, limit, hg, hst, hx0⟩
    exact ⟨w, mem_revoked_shed.2 (noticeOf_isSome_iff.2 ⟨v, g, number, limit, hg, hst⟩), v,
      freedBy_eq_some_iff.2 ⟨hr, ha, g, hg, hx0⟩, rfl, rfl⟩

end Shed

/-! ### The loss -/

section Drop

variable (s : State) (n : NodeId)

theorem freeList_dropNode :
    (s.dropNode n).freeList = (s.freedList n).foldl (fun l x => release x.2.home l) s.freeList := by
  rw [dropNode_eq, (unlistable_revoked (hold_shed s n)).freeList, freeList_shed, State.freedList]
  generalize s.freeList = l
  induction (s.shed n).revoked n generalizing l with
  | nil => rfl
  | cons w ws ih =>
    rw [List.filterMap_cons, List.filterMap_cons, freedBy_shed]
    cases s.freedBy n w with
    | none => exact ih l
    | some v => exact ih _

/-- What the loss of a node does beyond windows, free list and flags (R65, R66, R89, R107, R120). -/
theorem dropNode_removals :
    (s.dropNode n).beyondRemovals =
      ((((s.clearOutbound n).abandonTags n).setHold n []).setMap n
        ((s.map n).filter fun w => (s.noticeOf n w).isNone)).beyondRemovals := by
  have hmap : (s.shed n).map n = s.map n := congrFun (map_of_removals (shed_removals s n)) n
  have hfilter : ((s.map n).filter fun w => decide (w ∉ (s.shed n).revoked n)) =
      (s.map n).filter fun w => (s.noticeOf n w).isNone := by
    refine List.filter_congr fun w _ => ?_
    cases hw : s.noticeOf n w <;> simp [mem_revoked_shed, hw]
  rw [dropNode_eq, unlistAll_removals (hold_shed s n), hmap, hfilter]
  exact congrArg (fun u : State => u.setMap n _) (shed_removals s n)

end Drop

end Sys2Proof.Machine
end

section
/-! SUPPORT. What a node's loss leaves, clause by clause, and the restart HELLO and the link down that end in it. -/

namespace Sys2Proof.Machine

/-! ### The grants of a lost node -/

section Grants

variable {s : State} {n : NodeId} {w : WindowId} {v : Live} {g : GrantRecord}

/-- A grant after the entries of a lost node that stood under it have left (R11, R107). -/
def GrantRecord.shed (g : GrantRecord) (s : State) (w : WindowId) (n : NodeId) : GrantRecord :=
  { g with held := g.held - (s.heldUnder w n).length }

/-- A window in use after the entries of a lost node that named it have left. -/
def Live.shed (v : Live) (s : State) (w : WindowId) (n : NodeId) : Live := v.dropHeld n (s.heldUnder w n).length

theorem noticeOf_of_grant (hg : s.grant w n = some (v, g)) : s.noticeOf n w = g.state.notice := by
  rw [State.noticeOf, hg]

theorem grant_shed_of (hg : s.grant w n = some (v, g)) : (s.shed n).grant w n = some (v.shed s w n, g.shed s w n) := by
  rw [grant_shed, hg]
  rfl

/-- A grant that is not REVOKING is not unlisted by the loss of its node (R120). -/
theorem grant_dropNode_of_no_notice (hg : s.grant w n = some (v, g)) (hst : g.state.notice = none) :
    (s.dropNode n).grant w n = some (v.shed s w n, g.shed s w n) := by
  have hw : w ∉ (s.shed n).revoked n := by
    rw [mem_revoked_shed, noticeOf_of_grant hg, hst]
    simp
  rw [dropNode_eq, grant_of_window ((unlistable_revoked (hold_shed s n)).window_of_not_mem hw), grant_shed_of hg]

/-- A REVOKING grant is unlisted from what its window was, without the entries that have left (R120). -/
theorem dropNode_turn (hg : s.grant w n = some (v, g)) {number : Byte} (hst : g.state.notice = some number) :
    ∃ u : State, u.hold n = [] ∧ u.grant w n = some (v.shed s w n, g.shed s w n) ∧
      (u.window w).generation = (s.window w).generation ∧ (s.dropNode n).window w = (u.unlist w n).window w ∧
      ∀ f, (u.unlist w n).isPending f = true → (s.dropNode n).isPending f = true := by
  have hw : w ∈ (s.shed n).revoked n := by
    rw [mem_revoked_shed, noticeOf_of_grant hg, hst]
    rfl
  obtain ⟨u, hu, hwin, hend, hflags⟩ := (unlistable_revoked (hold_shed s n)).turn hw
  rw [dropNode_eq]
  exact ⟨u, hu, (grant_of_window hwin n).trans (grant_shed_of hg), by rw [hwin, window_shed], hend, hflags⟩

/-- A REVOKING grant under which something executes drains (R116). -/
theorem grant_dropNode_executing (hg : s.grant w n = some (v, g)) {number : Byte} (hst : g.state.notice = some number)
    (hx : g.executing ≠ 0) : ∃ a, (s.dropNode n).grant w n = some (a, { g.shed s w n with state := .draining }) := by
  obtain ⟨u, hu, hgu, -, hend, -⟩ := dropNode_turn hg hst
  rw [grant_of_window hend n, unlist_executing hu hgu hx]
  exact ⟨_, grant_delist hgu⟩

section Drained

variable (hg : s.grant w n = some (v, g)) {number : Byte} (hst : g.state.notice = some number) (hx : g.executing = 0)
include hg hst hx

/-- A REVOKING grant under which nothing executes is removed with GRANT_REMOVED (R122). -/
theorem isPending_dropNode_removed : (s.dropNode n).isPending (.grantRemoved w) = true := by
  obtain ⟨u, hu, hgu, -, -, hflags⟩ := dropNode_turn hg hst
  exact hflags _ (isPending_unlist_removed hu hgu hx)

/-- Its window is freed when it is RETIRING and has no other grant (R122, R126). -/
theorem dropNode_freed (hr : v.state = .retiring) (ha : ∀ k ∈ v.grants, k.node = n) :
    (s.dropNode n).window w = { generation := (s.window w).generation + 1, life := none } ∧
      (s.dropNode n).isPending (.retireDone w) = true := by
  obtain ⟨u, hu, hgu, hgen, hend, hflags⟩ := dropNode_turn hg hst
  have hfreed := unlist_freed hu hgu hx hr ((nodes_dropHeld v n n _).2 ha)
  refine ⟨?_, hflags _ (hfreed ▸ isPending_retireDone ..)⟩
  rw [hend, hfreed, window_completeRetirement, if_pos rfl, window_takeOut, if_pos rfl, hgen]

/-- Its window stays in use, without the grant, when it is not RETIRING or has another (R122). -/
theorem life_dropNode_kept (hk : v.state ≠ .retiring ∨ ∃ k ∈ v.grants, k.node ≠ n) :
    ∃ a, ((s.dropNode n).window w).life = some a ∧ a.grant n = none := by
  obtain ⟨u, hu, hgu, -, hend, -⟩ := dropNode_turn hg hst
  have hk' : (v.shed s w n).state ≠ .retiring ∨ ∃ k ∈ (v.shed s w n).grants, k.node ≠ n := by
    refine hk.imp_right fun hother => ?_
    by_contra hnone
    push Not at hnone
    obtain ⟨k, hk, hne⟩ := hother
    exact hne ((nodes_dropHeld v n n _).1 hnone k hk)
  refine ⟨_, ?_, (grant_filter_ne (v.shed s w n) n n).trans (if_pos rfl)⟩
  rw [hend, unlist_kept hu hgu hx hk']
  exact life_takeOut hgu

theorem grant_dropNode_drained : (s.dropNode n).grant w n = none := by
  by_cases hc : v.state = .retiring ∧ ∀ k ∈ v.grants, k.node = n
  · exact grant_of_free (by rw [(dropNode_freed hg hst hx hc.1 hc.2).1]) n
  · obtain ⟨a, ha, hnone⟩ := life_dropNode_kept hg hst hx (by
      by_contra hn
      push Not at hn
      exact hc hn)
    rw [grant_of_life ha, hnone]
    rfl

end Drained

theorem noticeOf_dropNode (s : State) (n : NodeId) (w : WindowId) : (s.dropNode n).noticeOf n w = none := by
  cases hnotice : (s.dropNode n).noticeOf n w with
  | none => rfl
  | some number =>
    have hbefore := (dropNode_silent s n).held n w number hnotice
    unfold State.noticeOf at hbefore
    split at hbefore
    · simp at hbefore
    · rename_i vg hg
      by_cases hx : vg.2.executing = 0
      · rw [State.noticeOf, grant_dropNode_drained hg hbefore hx] at hnotice
        simp at hnotice
      · obtain ⟨a, ha⟩ := grant_dropNode_executing hg hbefore hx
        rw [State.noticeOf, ha] at hnotice
        simp [GrantState.notice] at hnotice

end Grants

/-! ### The other records of a lost node -/

section Records

variable (s : State) (n m : NodeId)

theorem port_dropNode :
    (s.dropNode n).port m = if n = m then { s.port m with outbound := [] } else s.port m := by
  have hcleared : (s.clearOutbound n).port m = if n = m then { s.port n with outbound := [] } else s.port m :=
    port_setPort ..
  rw [port_of_removals (dropNode_removals s n), setMap_port, setHold_port]
  refine hcleared.trans ?_
  split
  · rename_i hm
    rw [hm]
  · rfl

theorem hold_dropNode : (s.dropNode n).hold m = if n = m then [] else s.hold m := by
  rw [hold_of_removals (dropNode_removals s n), setMap_hold, hold_setHold]
  rfl

theorem map_dropNode :
    (s.dropNode n).map m = if n = m then (s.map n).filter fun w => (s.noticeOf n w).isNone else s.map m := by
  rw [map_of_removals (dropNode_removals s n), map_setMap]
  rfl

theorem tag_dropNode (u : Tag) : (s.dropNode n).tag n u = none := by
  rw [tag_of_removals (dropNode_removals s n)]
  change Table.get (Table.get (Table.put s.tags n (Table.fill 32 none)) n) u = none
  rw [Table.get_put_same, Table.get_fill]

end Records

/-! ### The state a loss leaves -/

/-- What the loss of a node has done, in a state that may differ in the node's port and in further flags (R63, R65, R66,
R89, R107, R116, R120, R122, R126). -/
structure State.NodeLost (s : State) (n : NodeId) (t : State) : Prop where
  tags : ∀ tag, t.tag n tag = none
  hold : t.hold n = []
  notices : ∀ w, t.noticeOf n w = none
  transactions : t.transactions = s.transactions.map fun x => if x.node = n then { x with tag := none } else x
  others : ∀ m, m ≠ n → t.port m = s.port m ∧ t.hold m = s.hold m ∧ t.map m = s.map m
  map : t.map n = (s.map n).filter fun w => (s.noticeOf n w).isNone
  stays : ∀ w v g, s.grant w n = some (v, g) → g.state = .listed ∨ g.state = .draining →
    ∃ a, t.grant w n = some (a, g.shed s w n)
  drains : ∀ w v g number limit, s.grant w n = some (v, g) → g.state = .revoking number limit → 0 < g.executing →
    ∃ a, t.grant w n = some (a, { g.shed s w n with state := .draining })
  removed : ∀ w v g number limit, s.grant w n = some (v, g) → g.state = .revoking number limit → g.executing = 0 →
    t.grant w n = none ∧ t.isPending (.grantRemoved w) = true ∧
      (v.state = .retiring → (∀ k ∈ v.grants, k.node = n) →
        t.window w = { generation := (s.window w).generation + 1, life := none } ∧
          t.isPending (.retireDone w) = true) ∧
      (v.state ≠ .retiring ∨ (∃ k ∈ v.grants, k.node ≠ n) → (t.window w).life.isSome)
  freeList : t.freeList = (s.freedList n).foldl (fun l x => Machine.release x.2.home l) s.freeList
  captures : t.captures = s.captures
  channels : t.channels = s.channels
  pool : t.pool = s.pool
  slots : t.slots = s.slots
  engine : t.engine = s.engine

section Lost

variable {s : State} {n : NodeId}

theorem nodeLost_dropNode (s : State) (n : NodeId) : s.NodeLost n (s.dropNode n) := by
  have hrest := dropNode_removals s n
  have hnotice : ∀ {g : GrantRecord} {number : Byte} {limit : Option Nat}, g.state = .revoking number limit →
      g.state.notice = some number := by
    intro g number limit hst
    rw [hst]
    rfl
  refine ⟨tag_dropNode s n, ?_, noticeOf_dropNode s n, (transactions_of_removals hrest :),
    fun m hm => ⟨?_, ?_, ?_⟩, ?_, fun w v g hg hst => ?_, fun w v g number limit hg hst hx => ?_,
    fun w v g number limit hg hst hx => ?_, freeList_dropNode s n, (captures_of_removals hrest :),
    (channels_of_removals hrest :), (pool_of_removals hrest :), (slots_of_removals hrest :),
    (engine_of_removals hrest :)⟩
  · rw [hold_dropNode, if_pos rfl]
  · rw [port_dropNode, if_neg hm.symm]
  · rw [hold_dropNode, if_neg hm.symm]
  · rw [map_dropNode, if_neg hm.symm]
  · rw [map_dropNode, if_pos rfl]
  · exact ⟨_, grant_dropNode_of_no_notice hg (by rcases hst with hst | hst <;> rw [hst] <;> rfl)⟩
  · exact grant_dropNode_executing hg (hnotice hst) (Nat.pos_iff_ne_zero.1 hx)
  · refine ⟨grant_dropNode_drained hg (hnotice hst) hx, isPending_dropNode_removed hg (hnotice hst) hx,
      dropNode_freed hg (hnotice hst) hx, fun hk => ?_⟩
    obtain ⟨a, ha, -⟩ := life_dropNode_kept hg (hnotice hst) hx hk
    rw [ha]
    rfl

/-- A state that differs from another in one node's port and in flags that are raised further. -/
def State.Relinks (r t : State) (n : NodeId) : Prop :=
  ∃ ports attention, t = { r with ports := ports, attention := attention } ∧
    (∀ m, m ≠ n → Table.get ports m = r.port m) ∧ ∀ f, r.isPending f = true → t.isPending f = true

theorem State.NodeLost.relinks {r t : State} (h : s.NodeLost n r) (ht : r.Relinks t n) : s.NodeLost n t := by
  obtain ⟨ports, attention, rfl, hports, hflags⟩ := ht
  exact
    { tags := h.tags
      hold := h.hold
      notices := h.notices
      transactions := h.transactions
      others := fun m hm => ⟨(hports m hm).trans (h.others m hm).1, (h.others m hm).2⟩
      map := h.map
      stays := h.stays
      drains := h.drains
      removed := fun w v g number limit hg hst hx => by
        obtain ⟨hgone, hraised, hfreed, hkept⟩ := h.removed w v g number limit hg hst hx
        exact ⟨hgone, hflags _ hraised, fun hr ha => ⟨(hfreed hr ha).1, hflags _ (hfreed hr ha).2⟩, hkept⟩
      freeList := h.freeList
      captures := h.captures
      channels := h.channels
      pool := h.pool
      slots := h.slots
      engine := h.engine }

end Lost

/-! ### The link down -/

theorem isPending_setLink (s : State) (n : NodeId) (l : LinkState) (f : Flag) :
    (s.setLink n l).isPending f = s.isPending f := rfl

section Down

variable (s : State) (n : NodeId)

/-- The state after a link down (R66). -/
def State.linkLost (s : State) (n : NodeId) : State := ((s.dropNode n).raise (.nodeDown n)).setLink n .down

theorem raise_setLink_relinks (r : State) (f : Flag) (l : LinkState) : r.Relinks ((r.raise f).setLink n l) n :=
  ⟨_, _, rfl, fun _ hm => Table.get_put_of_ne _ _ hm.symm, fun g hg => isPending_raise_of r g f hg⟩

theorem nodeLost_linkLost : s.NodeLost n (s.linkLost n) :=
  (nodeLost_dropNode s n).relinks (raise_setLink_relinks ..)

theorem isPending_linkLost : (s.linkLost n).isPending (.nodeDown n) = true := by
  rw [State.linkLost, isPending_setLink]
  exact isPending_raise ..

theorem port_linkLost : (s.linkLost n).port n = { s.port n with link := .down, outbound := [] } := by
  rw [State.linkLost, State.setLink, port_setPort, if_pos rfl, State.raise, setReasons_port, port_dropNode, if_pos rfl]

theorem exec_linkDown {s : State} {n : NodeId} (h : s.resetHeld = false) (hl : s.link n ≠ .down) :
    exec (.linkDown n) s = .next (s.linkLost n) := by
  simp only [exec, execLinkDown, event_free h, if_neg hl]
  rfl

end Down

/-! ### The restart -/

/-- The flags of a HELLO are one source's: raising them lowers none (R62, R156). -/
theorem isPending_hello_of {s : State} {f : Flag} (hf : s.isPending f = true) (n : NodeId) (known : Prop)
    [Decidable known] :
    (s.flagged (nodeSource n) (if known then 0b000001 else 0b000011)).isPending f = true := by
  have hup : (s.raise (.nodeUp n)).isPending f = true := isPending_raise_of s f (.nodeUp n) hf
  split
  · exact hup
  · rw [show (0b000011 : BitVec 6) = 0b000001 ||| 0b000010 from rfl, ← flagged_flagged]
    exact isPending_raise_of _ f (.nodeChanged n) hup

theorem isPending_hello_up (s : State) (n : NodeId) (known : Prop) [Decidable known] :
    (s.flagged (nodeSource n) (if known then 0b000001 else 0b000011)).isPending (.nodeUp n) = true := by
  have hup : (s.raise (.nodeUp n)).isPending (.nodeUp n) = true := isPending_raise ..
  split
  · exact hup
  · rw [show (0b000011 : BitVec 6) = 0b000001 ||| 0b000010 from rfl, ← flagged_flagged]
    exact isPending_raise_of _ (.nodeUp n) (.nodeChanged n) hup

theorem isPending_hello_changed (s : State) (n : NodeId) (known : Prop) [Decidable known] (hk : ¬known) :
    (s.flagged (nodeSource n) (if known then 0b000001 else 0b000011)).isPending (.nodeChanged n) = true := by
  rw [if_neg hk, show (0b000011 : BitVec 6) = 0b000001 ||| 0b000010 from rfl, ← flagged_flagged]
  exact isPending_raise _ (.nodeChanged n)

theorem withPort_flagged_relinks {r : State} {n : NodeId} (p : Port) (known : Prop) [Decidable known] :
    r.Relinks ((r.withPort n p).flagged (nodeSource n) (if known then 0b000001 else 0b000011)) n :=
  ⟨_, _, rfl, fun _ hm => Table.get_put_of_ne _ _ hm.symm,
    fun f hf => isPending_hello_of (s := r.withPort n p) (f := f) hf n known⟩

section Restart

variable (s : State) (n : NodeId) (identity : Word)

/-- The port of a node that has restarted (R63, R65). -/
def State.restartedPort (s : State) (n : NodeId) (identity : Word) : Port :=
  { link := .fenced
    identity := some identity
    standing := (s.port n).standing.afterHello s.booting
    counter := (s.port n).counter
    outbound := [.welcome false]
    handed := (s.port n).handed }

theorem booting_dropNode : (s.dropNode n).booting = s.booting :=
  (congrArg State.booting (dropNode_removals s n) :)

/-- A restart is the loss of the node, and a HELLO that leaves it FENCED (R65). -/
theorem restart_eq :
    s.restart n identity =
      ((s.dropNode n).withPort n (s.restartedPort n identity)).flagged (nodeSource n)
        (if (s.port n).identity = none ∨ (s.port n).identity = some identity then 0b000001 else 0b000011) := by
  have hport : (s.dropNode n).port n = { s.port n with outbound := [] } := by rw [port_dropNode, if_pos rfl]
  rw [State.restart, greeted_eq _ _ _ (by simp), hport, booting_dropNode]
  rfl

theorem nodeLost_restart : s.NodeLost n (s.restart n identity) := by
  rw [restart_eq]
  exact (nodeLost_dropNode s n).relinks (withPort_flagged_relinks ..)

theorem port_restart : (s.restart n identity).port n = s.restartedPort n identity := by
  rw [restart_eq]
  exact Table.get_put_same ..

theorem isPending_restart_up : (s.restart n identity).isPending (.nodeUp n) = true := by
  rw [restart_eq]
  exact isPending_hello_up ..

theorem isPending_restart_changed (h1 : (s.port n).identity ≠ none) (h2 : (s.port n).identity ≠ some identity) :
    (s.restart n identity).isPending (.nodeChanged n) = true := by
  rw [restart_eq]
  exact isPending_hello_changed _ n _ fun hk => hk.elim h1 h2

theorem exec_hello_restart {s : State} {n : NodeId} (h : s.resetHeld = false) (hd : s.link n ≠ .down)
    (hl : s.link n ≠ .listening) : exec (.hello n identity) s = .next (s.restart n identity) := by
  simp only [exec, execHello, event_free h, State.hello]
  split <;> simp_all

end Restart

/-! ### Both -/

/-- What the two events that lose a node leave of it, and what each does beside. -/
theorem exec_nodeLost {s : State} {n : NodeId} {identity : Word} (h : s.resetHeld = false) (hd : s.link n ≠ .down)
    {i : Instr} (hi : (i = .hello n identity ∧ s.link n ≠ .listening) ∨ i = .linkDown n) :
    (i = .linkDown n ∧ exec i s = .next (s.linkLost n)) ∨
      (i = .hello n identity ∧ exec i s = .next (s.restart n identity)) := by
  rcases hi with ⟨rfl, hl⟩ | rfl
  · exact .inr ⟨rfl, exec_hello_restart identity h hd hl⟩
  · exact .inl ⟨rfl, exec_linkDown h hd⟩

/-- Settles O24: the tags and entries go, each REVOKING grant is unlisted in turn, and the event does the rest. -/
theorem nodeLossClearsNode : Obligations.NodeLossClearsNode := by
  intro s n identity h hd i hi
  have hlost : ∃ t, exec i s = .next t ∧ s.NodeLost n t ∧
      (i = .linkDown n → t = s.linkLost n) ∧ (i = .hello n identity → t = s.restart n identity) := by
    rcases exec_nodeLost h hd hi with ⟨rfl, ht⟩ | ⟨rfl, ht⟩
    · exact ⟨_, ht, nodeLost_linkLost s n, fun _ => rfl, by simp⟩
    · exact ⟨_, ht, nodeLost_restart s n identity, by simp, fun _ => rfl⟩
  obtain ⟨t, ht, hlost, hdown, hhello⟩ := hlost
  refine ⟨t, ht, hlost.tags, hlost.hold, hlost.notices, hlost.transactions, hlost.others, hlost.map,
    fun w v g k hg hk => ?_, ⟨s.freedList n, freedList_once, fun w v => mem_freedList, hlost.freeList⟩, hlost.captures,
    hlost.channels, hlost.pool, hlost.slots, hlost.engine, fun hi => ?_, fun hi => ?_⟩
  · subst hk
    exact ⟨hlost.stays w v g hg, fun number limit hst =>
      ⟨hlost.drains w v g number limit hg hst, hlost.removed w v g number limit hg hst⟩⟩
  · rw [hdown hi]
    exact ⟨isPending_linkLost s n, port_linkLost s n⟩
  · rw [hhello hi, port_restart, ← afterHello_eq]
    exact ⟨isPending_restart_up s n identity, isPending_restart_changed s n identity, rfl, rfl, rfl, rfl, rfl⟩

end Sys2Proof.Machine
end

section
/-! SUPPORT. The register of requests: the hold queues, tags, transaction records and fault capture records, and what
leaves them as they were. -/

namespace Sys2Proof.Machine

/-- What tells the requests of the nodes apart, with the fault capture records. -/
structure Register where
  holds : Vector (List HoldEntry) 4
  tags : Vector (Vector (Option TagEntry) 32) 4
  transactions : List Transaction
  nextTransaction : Nat
  captures : Vector (Option Capture) 4

/-- The register of a state. -/
def State.register (s : State) : Register :=
  { holds := s.holds
    tags := s.tags
    transactions := s.transactions
    nextTransaction := s.nextTransaction
    captures := s.captures }

section OfRegister

variable {s t : State} (h : t.register = s.register)
include h

theorem hold_of_register : t.hold = s.hold := funext fun n => congrArg (fun r : Register => Table.get r.holds n) h

theorem tag_of_register : t.tag = s.tag :=
  funext₂ fun n u => congrArg (fun r : Register => Table.get (Table.get r.tags n) u) h

theorem transactions_of_register : t.transactions = s.transactions := congrArg Register.transactions h

theorem nextTransaction_of_register : t.nextTransaction = s.nextTransaction := congrArg Register.nextTransaction h

theorem capture_of_register : t.capture = s.capture :=
  funext fun n => congrArg (fun r : Register => Table.get r.captures n) h

end OfRegister

section Frames

variable (s : State)

/-! ### Single updates -/

@[simp] theorem setWindow_register (w : WindowId) (r : WindowRecord) : (s.setWindow w r).register = s.register := rfl
@[simp] theorem setMap_register (n : NodeId) (m : List WindowId) : (s.setMap n m).register = s.register := rfl
@[simp] theorem setPort_register (n : NodeId) (p : Port) : (s.setPort n p).register = s.register := rfl
@[simp] theorem setLink_register (n : NodeId) (l : LinkState) : (s.setLink n l).register = s.register := rfl
@[simp] theorem setSlot_register (j : SlotId) (t : Slot) : (s.setSlot j t).register = s.register := rfl
@[simp] theorem setPhase_register (p : EnginePhase) : (s.setPhase p).register = s.register := rfl
@[simp] theorem setReasons_register (i : Fin 73) (r : BitVec 6) : (s.setReasons i r).register = s.register := rfl
@[simp] theorem raise_register (f : Flag) : (s.raise f).register = s.register := rfl
@[simp] theorem release_register (e : Extent) : (s.release e).register = s.register := rfl
@[simp] theorem issueCopyRead_register (j : SlotId) (job : Job) : (s.issueCopyRead j job).register = s.register := rfl
@[simp] theorem issueCopyWrite_register (j : SlotId) (job : Job) (data : List Byte) :
    (s.issueCopyWrite j job data).register = s.register := rfl
@[simp] theorem clearOutbound_register (n : NodeId) : (s.clearOutbound n).register = s.register := rfl
@[simp] theorem updateStanding_register (n : NodeId) : (s.updateStanding n).register = s.register := rfl
@[simp] theorem endOp_register (c : ChannelId) (op : PoolOp) (rest : List PoolOp) (dramFault : Bool) :
    (s.endOp c op rest dramFault).state.register = s.register := rfl

@[simp] theorem updateLive_register (w : WindowId) (f : Live → Live) : (s.updateLive w f).register = s.register := by
  unfold State.updateLive
  split <;> rfl

@[simp] theorem updateGrant_register (w : WindowId) (n : NodeId) (f : GrantRecord → GrantRecord) :
    (s.updateGrant w n f).register = s.register := updateLive_register ..

@[simp] theorem lowerHeld_register (w : WindowId) (n : NodeId) : (s.lowerHeld w n).register = s.register :=
  updateLive_register ..

@[simp] theorem send_register (n : NodeId) (m : Message) : (s.send n m).register = s.register := by
  unfold State.send
  split <;> rfl

/-! ### Links -/

@[simp] theorem endFenceDrain_register (n : NodeId) : (s.endFenceDrain n).register = s.register := by
  unfold State.endFenceDrain
  split <;> rfl

@[simp] theorem recordIdentity_register (n : NodeId) (identity : Word) :
    (s.recordIdentity n identity).register = s.register := by
  rw [recordIdentity_eq]
  rfl

@[simp] theorem malformed_register (n : NodeId) : (s.malformed n).register = s.register := by
  unfold State.malformed
  split <;> rfl

@[simp] theorem decidePort_register (n : NodeId) : (s.decidePort n).register = s.register := by
  unfold State.decidePort
  split
  · simp only []
    split <;> simp
  · rfl

/-! ### Grants and windows -/

@[simp] theorem retireIfEmpty_register (w : WindowId) : (s.retireIfEmpty w).register = s.register := by
  unfold State.retireIfEmpty
  split
  · rfl
  · split <;> rfl

@[simp] theorem removeIfDrained_register (w : WindowId) (n : NodeId) :
    (s.removeIfDrained w n).register = s.register := by
  unfold State.removeIfDrained
  split
  · rfl
  · split
    · simp [State.removeGrant]
    · rfl

@[simp] theorem sendNotice_register (w : WindowId) (v : Live) (n : NodeId) (g : GrantRecord) :
    (s.sendNotice w v n g).register = s.register := by
  simp [State.sendNotice]

@[simp] theorem addGrant_register (w : WindowId) (n : NodeId) (base : Nat) (r : Rights) :
    (s.addGrant w n base r).register = s.register := by
  simp [State.addGrant]

@[simp] theorem makeWindow_register (w : WindowId) (home : Extent) (free : List Extent) :
    (s.makeWindow w home free).register = s.register := rfl

@[simp] theorem suspend_register (w : WindowId) (v : Live) : (s.suspend w v).register = s.register := by
  unfold State.suspend
  simp only []
  split <;> simp

/-- Changes that each leave the register as it was leave it so one after another. -/
theorem foldl_register {α : Type} {f : State → α → State} (hf : ∀ (s : State) x, (f s x).register = s.register)
    (l : List α) : (l.foldl f s).register = s.register := by
  induction l generalizing s with
  | nil => rfl
  | cons x l ih => exact (ih _).trans (hf s x)

theorem installWindows_register (i : Nat) (ws : List ImageWindow) : (s.installWindows i ws).register = s.register := by
  induction ws generalizing s i with
  | nil => rfl
  | cons x rest ih =>
    refine (ih (s.installWindow i x) (i + 1)).trans ?_
    exact foldl_register (f := State.installGrant (Fin.ofNat 64 i))
      (s.makeWindow (Fin.ofNat 64 i) x.extent ((allocateExplicit x.extent s.freeList).getD s.freeList))
      (fun s g => addGrant_register s _ _ g.base _) x.grants

theorem endBoot_register (status : BootStatus) (mask : BitVec 4) (f : Flag) :
    (s.endBoot status mask f).register = s.register := by
  have hports := foldl_register { s with maskInForce := mask } decidePort_register allNodes
  unfold State.endBoot
  generalize allNodes.foldl State.decidePort { s with maskInForce := mask } = t at hports ⊢
  exact hports

/-- The installation makes windows and grants and no request (R169). -/
@[simp] theorem install_register (eeprom : List Byte) : (s.install eeprom).register = s.register := by
  unfold State.install
  split
  · exact (endBoot_register ..).trans (installWindows_register ..)
  · exact endBoot_register ..

/-! ### The Copy Engine -/

@[simp] theorem readOrWait_register (j : SlotId) (job : Job) : (s.readOrWait j job).register = s.register := by
  unfold State.readOrWait
  split <;> rfl

@[simp] theorem startTurn_register : s.startTurn.register = s.register := by
  unfold State.startTurn
  split
  · rfl
  · split
    · rw [readOrWait_register]
      rfl
    all_goals rfl

@[simp] theorem endTurn_register : s.endTurn.register = s.register := by
  unfold State.endTurn
  split <;> simp

@[simp] theorem endWaiting_register (j : SlotId) : (s.endWaiting j).register = s.register := by
  unfold State.endWaiting
  split <;> simp

@[simp] theorem resumeWaiting_register (j : SlotId) : (s.resumeWaiting j).register = s.register := by
  unfold State.resumeWaiting
  split
  · split
    · simp
    all_goals rfl
  · rfl

@[simp] theorem finish_register (j : SlotId) (job : Job) (o : JobOutcome) (e : Extent) (f : Flag) :
    (s.finish j job o e f).register = s.register := by
  simp [State.finish]

@[simp] theorem lookDrain_register (j : SlotId) : (s.lookDrain j).register = s.register := by
  unfold State.lookDrain
  split
  · split <;> simp
  · split <;> simp
  all_goals rfl

@[simp] theorem tellEngine_register (w : WindowId) : (s.tellEngine w).register = s.register := by
  unfold State.tellEngine
  split
  · rfl
  · split
    · simp
    all_goals rfl

@[simp] theorem tellDirectory_register (w : WindowId) : (s.tellDirectory w).register = s.register := by
  unfold State.tellDirectory
  split
  · rfl
  · split <;> simp

@[simp] theorem afterChunk_register (j : SlotId) (job : Job) : (s.afterChunk j job).register = s.register := by
  unfold State.afterChunk
  split <;> simp [State.switch]

@[simp] theorem endAbortedTurn_register (j : SlotId) : (s.endAbortedTurn j).register = s.register := by
  simp [State.endAbortedTurn]

@[simp] theorem migrate_register (w : WindowId) (v : Live) (j : SlotId) (target : Extent) (free : List Extent) :
    (s.migrate w v j target free).register = s.register := by
  have hbegun : ((({ s with freeList := free }).setSlot j (.copying
      { window := w, generation := (s.window w).generation, source := v.home, target := target, cursor := 0 }
        false)).updateLive w fun v => { v with state := .migrating j }).register = s.register := updateLive_register ..
  unfold State.migrate
  simp only []
  split
  · exact (startTurn_register _).trans hbegun
  · exact hbegun

/-! ### The port -/

@[simp] theorem ackSource_register (i : Fin 73) (named : BitVec 6) : (s.ackSource i named).register = s.register := by
  unfold State.ackSource State.releaseSlot
  simp only []
  split
  · split <;> rfl
  · rfl

@[simp] theorem writeControl_register (value : Word) : (s.writeControl value).register = s.register := by
  unfold State.writeControl
  split
  · unfold State.softReset State.abandonCommand
    split <;> rfl
  · rfl

@[simp] theorem writeCommand_register (code : Word) : (s.writeCommand code).register = s.register := by
  unfold State.writeCommand
  split <;> rfl

@[simp] theorem writeParam_register (k : Fin 8) (value : Word) : (s.writeParam k value).register = s.register := by
  unfold State.writeParam
  split <;> rfl

@[simp] theorem writeSlot_register (i : Fin 16) (value : Word) : (s.writeSlot i value).register = s.register := by
  unfold State.writeSlot
  split <;> simp

@[simp] theorem tick_register : s.tick.register = s.register := by
  unfold State.tick
  split <;> rfl

theorem reach_register {s u : State} {t : Nat} (h : s.reach t = some u) : u.register = s.register := by
  unfold State.reach at h
  split at h
  · obtain rfl := Option.some.inj h
    rfl
  · simp at h

end Frames

end Sys2Proof.Machine
end

section
/-! SUPPORT. The agreement of hold queues, tags and transaction records, as a law of the tags held and of the phases of
the tags (R74, R76, R96). -/

namespace Sys2Proof.Machine

/-! ### The law -/

/-- The phase of a tag: none when the tag is free (R74). -/
def State.phaseOf (s : State) (n : NodeId) (u : Tag) : Option Phase := (s.tag n u).map fun x => x.phase

/-- The tags of a node's hold queue, oldest first. -/
def State.heldTags (s : State) (n : NodeId) : List Tag := (s.hold n).map fun e => e.tag

/-- The tags in `held` are those of phase HELD, each once, and the transaction records are named by the tags of phase
EXECUTING, each by its own. -/
structure State.Registered (s : State) (held : NodeId → List Tag) : Prop where
  heldOnce : ∀ n, (held n).Nodup
  held_iff : ∀ n u, s.phaseOf n u = some .held ↔ u ∈ held n
  idsOnce : (s.transactions.map fun x => x.id).Nodup
  idsPast : ∀ x ∈ s.transactions, x.id < s.nextTransaction
  record_iff : ∀ n u id,
    s.phaseOf n u = some (.executing id) ↔ ∃ x ∈ s.transactions, x.id = id ∧ x.node = n ∧ x.tag = some u

theorem phaseOf_eq_some_iff {s : State} {n : NodeId} {u : Tag} {p : Phase} :
    s.phaseOf n u = some p ↔ ∃ x, s.tag n u = some x ∧ x.phase = p := Option.map_eq_some_iff

theorem phaseOf_eq_none_iff {s : State} {n : NodeId} {u : Tag} : s.phaseOf n u = none ↔ s.tag n u = none :=
  Option.map_eq_none_iff

theorem mem_heldTags {s : State} {n : NodeId} {u : Tag} : u ∈ s.heldTags n ↔ ∃ e ∈ s.hold n, e.tag = u := List.mem_map

/-- Hold queues, tags and records agree exactly when the held tags and the phases keep the law. -/
theorem tagsAgree_iff (s : State) : s.TagsAgree ↔ s.Registered s.heldTags := by
  constructor
  · refine fun h => ⟨h.heldOnce, fun n u => ?_, h.idsOnce, h.idsPast, fun n u id => ?_⟩
    · rw [phaseOf_eq_some_iff, mem_heldTags]
      constructor
      · rintro ⟨x, hx, hp⟩
        exact h.tagHeld n u x hx hp
      · rintro ⟨e, he, rfl⟩
        exact h.heldTag n e he
    · rw [phaseOf_eq_some_iff]
      constructor
      · rintro ⟨y, hy, hp⟩
        exact h.tagRecord n u y id hy hp
      · rintro ⟨x, hx, rfl, rfl, hu⟩
        exact h.recordTag x hx u hu
  · intro h
    refine ⟨h.heldOnce, fun n e he => ?_, fun n u x hx hp => ?_, h.idsOnce, h.idsPast, fun x hx u hu => ?_,
      fun n u y id hy hp => ?_⟩
    · exact phaseOf_eq_some_iff.1 ((h.held_iff n e.tag).2 (mem_heldTags.2 ⟨e, he, rfl⟩))
    · exact mem_heldTags.1 ((h.held_iff n u).1 (phaseOf_eq_some_iff.2 ⟨x, hx, hp⟩))
    · exact phaseOf_eq_some_iff.1 ((h.record_iff x.node u x.id).2 ⟨x, hx, rfl, rfl, hu⟩)
    · exact (h.record_iff n u id).1 (phaseOf_eq_some_iff.2 ⟨y, hy, hp⟩)

/-! ### Phases after a change of one tag -/

/-- The phases with that of one tag replaced. -/
def phasesWith (f : NodeId → Tag → Option Phase) (n : NodeId) (u : Tag) (p : Option Phase) : NodeId → Tag → Option Phase :=
  fun m v => if n = m ∧ u = v then p else f m v

theorem phaseOf_of_tag {s t : State} {n : NodeId} {u : Tag} {x : Option TagEntry}
    (h : ∀ m v, t.tag m v = if n = m ∧ u = v then x else s.tag m v) :
    t.phaseOf = phasesWith s.phaseOf n u (x.map fun y => y.phase) := by
  funext m v
  rw [State.phaseOf, h, apply_ite (Option.map fun y : TagEntry => y.phase)]
  rfl

theorem phaseOf_setTag (s : State) (n : NodeId) (u : Tag) (x : Option TagEntry) :
    (s.setTag n u x).phaseOf = phasesWith s.phaseOf n u (x.map fun y => y.phase) :=
  phaseOf_of_tag fun m v => tag_setTag s n m u v x

theorem phaseOf_of_tags {s t : State} (h : t.tag = s.tag) : t.phaseOf = s.phaseOf := by
  funext n u
  rw [State.phaseOf, h]
  rfl

theorem phasesWith_self {f : NodeId → Tag → Option Phase} {n : NodeId} {u : Tag} {p : Option Phase} (h : f n u = p) :
    phasesWith f n u p = f := by
  funext m v
  unfold phasesWith
  split
  · rename_i hc
    rw [← hc.1, ← hc.2, h]
  · rfl

theorem phasesWith_phasesWith (f : NodeId → Tag → Option Phase) (n : NodeId) (u : Tag) (p q : Option Phase) :
    phasesWith (phasesWith f n u p) n u q = phasesWith f n u q := by
  funext m v
  simp only [phasesWith]
  split <;> rfl

namespace State.Registered

variable {s t : State} {held : NodeId → List Tag} (h : s.Registered held)
include h

/-- The law reads the held tags up to their order, the phases and the records. -/
theorem congr {held' : NodeId → List Tag} (hp : t.phaseOf = s.phaseOf) (hx : t.transactions = s.transactions)
    (hn : t.nextTransaction = s.nextTransaction) (hq : ∀ n, (held n).Perm (held' n)) : t.Registered held' where
  heldOnce n := (hq n).nodup_iff.1 (h.heldOnce n)
  held_iff n u := by rw [hp, h.held_iff, (hq n).mem_iff]
  idsOnce := hx ▸ h.idsOnce
  idsPast := by
    rw [hx, hn]
    exact h.idsPast
  record_iff n u id := by rw [hp, hx, h.record_iff]

/-- A held tag becomes free and leaves the held tags. -/
theorem free {n : NodeId} {u : Tag} {l : List Tag} (hq : (held n).Perm (u :: l))
    (hp : t.phaseOf = phasesWith s.phaseOf n u none) (hx : t.transactions = s.transactions)
    (hn : t.nextTransaction = s.nextTransaction) : t.Registered (Function.update held n l) := by
  have hu : s.phaseOf n u = some .held := (h.held_iff n u).2 (hq.mem_iff.2 (List.mem_cons_self ..))
  obtain ⟨hul, hl⟩ := List.nodup_cons.1 (hq.nodup_iff.1 (h.heldOnce n))
  refine ⟨fun m => ?_, fun m v => ?_, hx ▸ h.idsOnce, by rw [hx, hn]; exact h.idsPast, fun m v id => ?_⟩
  · by_cases hm : m = n
    · subst hm
      rwa [Function.update_self]
    · rw [Function.update_of_ne hm]
      exact h.heldOnce m
  · rw [hp, phasesWith]
    by_cases hm : m = n
    · subst hm
      rw [Function.update_self]
      by_cases hv : u = v
      · subst hv
        simp [hul]
      · simp [hv, Ne.symm hv, h.held_iff, hq.mem_iff]
    · rw [Function.update_of_ne hm, if_neg fun hc => hm hc.1.symm, h.held_iff]
  · rw [hp, phasesWith, hx, ← h.record_iff]
    split
    · rename_i hc
      simp [← hc.1, ← hc.2, hu]
    · rfl

/-- A free tag becomes held and joins the held tags. -/
theorem hold {n : NodeId} {u : Tag} (hu : s.phaseOf n u = none)
    (hp : t.phaseOf = phasesWith s.phaseOf n u (some .held)) (hx : t.transactions = s.transactions)
    (hn : t.nextTransaction = s.nextTransaction) : t.Registered (Function.update held n (u :: held n)) := by
  have hul : u ∉ held n := fun hc => by simp [(h.held_iff n u).2 hc] at hu
  refine ⟨fun m => ?_, fun m v => ?_, hx ▸ h.idsOnce, by rw [hx, hn]; exact h.idsPast, fun m v id => ?_⟩
  · by_cases hm : m = n
    · subst hm
      rw [Function.update_self]
      exact List.nodup_cons.2 ⟨hul, h.heldOnce m⟩
    · rw [Function.update_of_ne hm]
      exact h.heldOnce m
  · rw [hp, phasesWith]
    by_cases hm : m = n
    · subst hm
      rw [Function.update_self]
      by_cases hv : u = v
      · simp [hv]
      · simp [hv, Ne.symm hv, h.held_iff]
    · rw [Function.update_of_ne hm, if_neg fun hc => hm hc.1.symm, h.held_iff]
  · rw [hp, phasesWith, hx, ← h.record_iff]
    split
    · rename_i hc
      simp [← hc.1, ← hc.2, hu]
    · rfl

/-- A free tag begins execution under a record of its own name (R76, R84). -/
theorem execute {x : Transaction} {u : Tag} (hu : s.phaseOf x.node u = none) (hid : x.id = s.nextTransaction)
    (htag : x.tag = some u) (hp : t.phaseOf = phasesWith s.phaseOf x.node u (some (.executing x.id)))
    (hx : t.transactions = s.transactions ++ [x]) (hn : t.nextTransaction = s.nextTransaction + 1) :
    t.Registered held where
  heldOnce := h.heldOnce
  held_iff m v := by
    rw [hp, phasesWith, ← h.held_iff]
    split
    · rename_i hc
      simp [← hc.1, ← hc.2, hu]
    · rfl
  idsOnce := by
    rw [hx, List.map_append, List.map_singleton]
    refine (List.perm_append_singleton ..).nodup_iff.2 (List.nodup_cons.2 ⟨fun hc => ?_, h.idsOnce⟩)
    obtain ⟨z, hz, hzx⟩ := List.mem_map.1 hc
    exact absurd (h.idsPast z hz) (by omega)
  idsPast z hz := by
    rw [hx] at hz
    rw [hn]
    rcases List.mem_append.1 hz with hz | hz
    · exact (h.idsPast z hz).trans (Nat.lt_succ_self _)
    · rw [List.mem_singleton.1 hz]
      omega
  record_iff m v id := by
    have hold := h.record_iff m v id
    rw [hp, phasesWith, hx]
    simp only [List.mem_append, List.mem_singleton]
    split
    · rename_i hc
      obtain ⟨rfl, rfl⟩ := hc
      simp only [hu, reduceCtorEq, false_iff, not_exists, not_and] at hold
      constructor
      · intro he
        exact ⟨x, .inr rfl, Phase.executing.inj (Option.some.inj he), rfl, htag⟩
      · rintro ⟨z, hz | rfl, rfl, hzn, hzt⟩
        · exact absurd hzt (hold z hz rfl hzn)
        · rfl
    · rename_i hc
      rw [hold]
      constructor
      · rintro ⟨z, hz, hzs⟩
        exact ⟨z, .inl hz, hzs⟩
      · rintro ⟨z, hz | rfl, hzi, hzn, hzt⟩
        · exact ⟨z, hz, hzi, hzn, hzt⟩
        · exact absurd ⟨hzn, Option.some.inj (htag.symm.trans hzt)⟩ hc

/-- A record leaves with its tag; an orphan has none (R88, R90). -/
theorem close {x : Transaction} (hm : x ∈ s.transactions)
    (hp : t.phaseOf = x.tag.elim s.phaseOf fun u => phasesWith s.phaseOf x.node u none)
    (hx : t.transactions = s.transactions.filter fun y => y.id != x.id)
    (hn : t.nextTransaction = s.nextTransaction) : t.Registered held := by
  have hown : ∀ u, x.tag = some u → s.phaseOf x.node u = some (.executing x.id) :=
    fun u hu => (h.record_iff x.node u x.id).2 ⟨x, hm, rfl, rfl, hu⟩
  have hphase : ∀ m v, t.phaseOf m v = if x.node = m ∧ x.tag = some v then none else s.phaseOf m v := by
    intro m v
    rw [hp]
    cases x.tag with
    | none => simp
    | some u => simp [phasesWith]
  have hid : ∀ y ∈ s.transactions, y.id = x.id → y = x := fun y hy he => eq_of_id h.idsOnce hy hm he
  refine ⟨h.heldOnce, fun m v => ?_, ?_, fun y hy => ?_, fun m v id => ?_⟩
  · rw [hphase, ← h.held_iff]
    split
    · rename_i hc
      simp [← hc.1, hown v hc.2]
    · rfl
  · rw [hx]
    exact h.idsOnce.sublist (List.filter_sublist.map _)
  · rw [hx] at hy
    rw [hn]
    exact h.idsPast y (List.mem_of_mem_filter hy)
  · rw [hphase, hx]
    simp only [List.mem_filter, bne_iff_ne]
    split
    · rename_i hc
      obtain ⟨rfl, hv⟩ := hc
      constructor
      · intro hf
        simp at hf
      · rintro ⟨y, ⟨hy, hne⟩, rfl, hyn, hyt⟩
        have hy' := (h.record_iff x.node v y.id).2 ⟨y, hy, rfl, hyn, hyt⟩
        rw [hown v hv] at hy'
        exact absurd (Phase.executing.inj (Option.some.inj hy')).symm hne
    · rename_i hc
      rw [h.record_iff]
      constructor
      · rintro ⟨y, hy, hyi, hyn, hyt⟩
        refine ⟨y, ⟨hy, fun he => hc ?_⟩, hyi, hyn, hyt⟩
        obtain rfl := hid y hy he
        exact ⟨hyn, hyt⟩
      · rintro ⟨y, ⟨hy, -⟩, hys⟩
        exact ⟨y, hy, hys⟩

/-- Records may change in what does not name them. -/
theorem mapRecords {f : Transaction → Transaction}
    (hf : ∀ x ∈ s.transactions, (f x).id = x.id ∧ (f x).node = x.node ∧ (f x).tag = x.tag)
    (hp : t.phaseOf = s.phaseOf) (hx : t.transactions = s.transactions.map f)
    (hn : t.nextTransaction = s.nextTransaction) : t.Registered held where
  heldOnce := h.heldOnce
  held_iff n u := by rw [hp, h.held_iff]
  idsOnce := by
    have hids : (s.transactions.map f).map (fun x => x.id) = s.transactions.map fun x => x.id := by
      rw [List.map_map]
      exact List.map_congr_left fun x hx => (hf x hx).1
    rw [hx, hids]
    exact h.idsOnce
  idsPast y hy := by
    rw [hx] at hy
    obtain ⟨x, hxs, rfl⟩ := List.mem_map.1 hy
    rw [hn, (hf x hxs).1]
    exact h.idsPast x hxs
  record_iff n u id := by
    rw [hp, hx, h.record_iff]
    constructor
    · rintro ⟨x, hxs, hxi, hxn, hxt⟩
      obtain ⟨h1, h2, h3⟩ := hf x hxs
      exact ⟨f x, List.mem_map_of_mem hxs, h1.trans hxi, h2.trans hxn, h3.trans hxt⟩
    · rintro ⟨y, hy, hyi, hyn, hyt⟩
      obtain ⟨x, hxs, rfl⟩ := List.mem_map.1 hy
      obtain ⟨h1, h2, h3⟩ := hf x hxs
      exact ⟨x, hxs, h1 ▸ hyi, h2 ▸ hyn, h3 ▸ hyt⟩

/-- A node that is lost gives up its tags and its held requests, and its records become orphans (R89, R107). -/
theorem abandon {n : NodeId} (hp : ∀ m u, t.phaseOf m u = if n = m then none else s.phaseOf m u)
    (hx : t.transactions = s.transactions.map (Transaction.orphanOf n))
    (hn : t.nextTransaction = s.nextTransaction) : t.Registered (Function.update held n []) := by
  have horphan : ∀ x : Transaction, (x.orphanOf n).id = x.id ∧ (x.orphanOf n).node = x.node ∧
      (x.orphanOf n).tag = if n = x.node then none else x.tag := by
    intro x
    unfold Transaction.orphanOf
    by_cases hxn : x.node = n
    · simp [hxn]
    · simp [hxn, Ne.symm hxn]
  refine ⟨fun m => ?_, fun m u => ?_, ?_, fun y hy => ?_, fun m u id => ?_⟩
  · by_cases hm : m = n
    · simp [hm]
    · rw [Function.update_of_ne hm]
      exact h.heldOnce m
  · rw [hp]
    by_cases hm : m = n
    · simp [hm]
    · rw [Function.update_of_ne hm, if_neg (Ne.symm hm), h.held_iff]
  · have hids : (s.transactions.map (Transaction.orphanOf n)).map (fun x => x.id) =
        s.transactions.map fun x => x.id := by
      rw [List.map_map]
      exact List.map_congr_left fun x _ => (horphan x).1
    rw [hx, hids]
    exact h.idsOnce
  · rw [hx] at hy
    obtain ⟨x, hxs, rfl⟩ := List.mem_map.1 hy
    rw [hn, (horphan x).1]
    exact h.idsPast x hxs
  · rw [hp, hx]
    simp only [List.mem_map, exists_exists_and_eq_and, (horphan _).1, (horphan _).2.1, (horphan _).2.2]
    by_cases hm : n = m
    · subst hm
      simp only [if_true, reduceCtorEq, false_iff, not_exists, not_and]
      rintro x - - rfl
      simp
    · rw [if_neg hm, h.record_iff]
      refine exists_congr fun x => and_congr_right fun _ => and_congr_right fun _ => and_congr_right fun hxn => ?_
      rw [if_neg (hxn ▸ hm)]

end State.Registered

end Sys2Proof.Machine
end

section
/-! SUPPORT. The single changes of hold queues, tags and records keep them in agreement (R74, R76, R96). -/

namespace Sys2Proof.Machine

theorem heldTags_of_hold {s t : State} (h : t.hold = s.hold) : t.heldTags = s.heldTags := by
  funext n
  rw [State.heldTags, h]
  rfl

theorem heldTags_update {s t : State} {n : NodeId} {l : List HoldEntry} (h : t.hold = Function.update s.hold n l) :
    t.heldTags = Function.update s.heldTags n (l.map fun e => e.tag) := by
  funext m
  rw [State.heldTags, h]
  by_cases hm : m = n
  · subst hm
    simp
  · simp [hm, State.heldTags]

/-- What leaves queues, tags and records as they were keeps their agreement. -/
theorem State.TagsAgree.of_register {s t : State} (h : s.TagsAgree) (hr : t.register = s.register) : t.TagsAgree := by
  rw [tagsAgree_iff] at h ⊢
  rw [heldTags_of_hold (hold_of_register hr)]
  exact h.congr (phaseOf_of_tags (tag_of_register hr)) (transactions_of_register hr)
    (nextTransaction_of_register hr) fun _ => List.Perm.refl _

/-- The agreement does not read the fault capture records. -/
theorem State.TagsAgree.setCapture {s : State} (h : s.TagsAgree) (n : NodeId) (c : Option Capture) :
    (s.setCapture n c).TagsAgree :=
  ⟨h.heldOnce, h.heldTag, h.tagHeld, h.idsOnce, h.idsPast, h.recordTag, h.tagRecord⟩

/-! ### Holding and executing -/

/-- A request of a free tag that is held joins its node's queue (R83). -/
theorem State.TagsAgree.takeHold {s : State} (h : s.TagsAgree) {n : NodeId} {u : Tag} (hu : s.tag n u = none)
    (q : Request) (f : Matched) (c : Cause) : (s.takeHold n u q f c).TagsAgree := by
  rw [tagsAgree_iff] at h ⊢
  have hr := h.hold (t := s.takeHold n u q f c) (phaseOf_eq_none_iff.2 hu)
    (phaseOf_of_tag (x := some (q.heldEntry f)) fun m v => tag_takeHold s n u q f c m v)
    (updateLive_transactions ..) (updateLive_nextTransaction ..)
  refine hr.congr rfl rfl rfl fun m => ?_
  rw [heldTags_update (hold_takeHold s n u q f c)]
  by_cases hm : m = n
  · subst hm
    rw [Function.update_self, Function.update_self, List.map_append]
    exact (List.perm_append_singleton u (s.heldTags m)).symm
  · simp [hm]

/-- What a request that begins execution makes of tags and records, its window being in use (R84). -/
theorem beginExecution_record {s : State} {f : Matched} {v : Live} (hv : (s.window f.window).life = some v)
    (n : NodeId) (u : Tag) (q : Request) : ∃ x : Transaction,
      x.id = s.nextTransaction ∧ x.node = n ∧ x.tag = some u ∧
      (s.beginExecution n u q f).transactions = s.transactions ++ [x] ∧
      (s.beginExecution n u q f).nextTransaction = s.nextTransaction + 1 ∧
      (s.beginExecution n u q f).hold = s.hold ∧
      ∀ m w, (s.beginExecution n u q f).tag m w =
        if n = m ∧ u = w then some (q.executingEntry f s.nextTransaction) else s.tag m w := by
  obtain ⟨x, ⟨hid, hnode, htag, -⟩, hl⟩ := beginExecution_live hv n u q
  refine ⟨x, hid, hnode, htag, ?_, ?_, ?_, fun m w => ?_⟩
  · rw [transactions_of_ledger hl]
    exact updateLive_transactions ..
  · rw [nextTransaction_of_ledger hl]
    exact updateLive_nextTransaction ..
  · rw [hold_of_ledger hl, State.raiseExecuting, updateLive_hold]
    rfl
  · rw [tag_of_ledger hl, State.raiseExecuting, updateLive_tag, tag_setTag]
    rfl

/-- A request begins no execution under a window that is FREE (R1, log 24). -/
theorem beginExecution_of_free {s : State} {f : Matched} (hf : (s.window f.window).life = none) (n : NodeId) (u : Tag)
    (q : Request) : s.beginExecution n u q f = s := by
  simp only [State.beginExecution, hf]

/-- A request whose tag is free in `s₀`, a state that differs from `s` in that tag alone, begins execution. -/
theorem State.Registered.beginExecution {s s₀ : State} {held : NodeId → List Tag} (h : s₀.Registered held) {n : NodeId}
    {u : Tag} (hp : s₀.phaseOf = phasesWith s.phaseOf n u none) (hx : s₀.transactions = s.transactions)
    (hn : s₀.nextTransaction = s.nextTransaction) {f : Matched} {v : Live} (hv : (s.window f.window).life = some v)
    (q : Request) : (s.beginExecution n u q f).Registered held := by
  obtain ⟨x, hid, rfl, htag, hrecords, hnext, -, htags⟩ := beginExecution_record hv n u q
  refine h.execute (x := x) (u := u) ?_ (hid.trans hn.symm) htag ?_ (hx ▸ hrecords) (hn ▸ hnext)
  · simp [hp, phasesWith]
  · rw [hp, phasesWith_phasesWith, phaseOf_of_tag htags, hid]
    rfl

/-- A request of a free tag that begins execution is named by its record (R84). -/
theorem State.TagsAgree.beginExecution {s : State} (h : s.TagsAgree) {n : NodeId} {u : Tag} (hu : s.tag n u = none)
    (q : Request) (f : Matched) : (s.beginExecution n u q f).TagsAgree := by
  cases hv : (s.window f.window).life with
  | none => rwa [beginExecution_of_free hv]
  | some v =>
    rw [tagsAgree_iff] at h ⊢
    obtain ⟨-, -, -, -, -, -, hhold, -⟩ := beginExecution_record hv n u q
    rw [heldTags_of_hold hhold]
    exact h.beginExecution (phasesWith_self (phaseOf_eq_none_iff.2 hu)).symm rfl rfl hv q

/-! ### Entries that leave a queue -/

/-- A held entry leaves with a fault (R91). -/
theorem State.Registered.faultEntry {s : State} {held : NodeId → List Tag} (h : s.Registered held) {n : NodeId}
    {e : HoldEntry} {l : List Tag} (hq : (held n).Perm (e.tag :: l)) (r : FaultReason) :
    (s.faultEntry n r e).Registered (Function.update held n l) := by
  have hl := faultTag_ledger (s.lowerHeld e.window n) n e.tag r
  refine h.free hq (phaseOf_of_tag fun m v => tag_faultEntry s n m r e v) ?_ ?_
  · exact (transactions_of_ledger hl).trans (updateLive_transactions ..)
  · exact (nextTransaction_of_ledger hl).trans (updateLive_nextTransaction ..)

theorem State.Registered.foldl_faultEntry (n : NodeId) (r : FaultReason) (l : List HoldEntry) (kept : List Tag)
    {s : State} {held : NodeId → List Tag} (h : s.Registered held)
    (hq : (held n).Perm ((l.map fun e => e.tag) ++ kept)) :
    (l.foldl (State.faultEntry n r) s).Registered (Function.update held n kept) := by
  induction l generalizing s held with
  | nil =>
    refine h.congr rfl rfl rfl fun m => ?_
    by_cases hm : m = n
    · subst hm
      simpa using hq
    · simp [hm]
  | cons e l ih =>
    have hrest := ih (h.faultEntry (l := (l.map fun e => e.tag) ++ kept) hq r) (by simp)
    rwa [Function.update_idem] at hrest

/-- Entries made hopeless leave one node's queue with their tags (R106). -/
theorem State.TagsAgree.faultHeld {s : State} (h : s.TagsAgree) (n : NodeId) (hit : HoldEntry → Bool)
    (r : FaultReason) : (s.faultHeld n hit r).TagsAgree := by
  rw [tagsAgree_iff] at h ⊢
  rw [heldTags_update (hold_faultHeld s n hit r)]
  have hq : (s.heldTags n).Perm
      (((s.hold n).filter hit).map (fun e => e.tag) ++ ((s.hold n).filter fun e => !hit e).map fun e => e.tag) := by
    rw [← List.map_append]
    exact ((List.filter_append_perm hit (s.hold n)).symm).map _
  exact State.Registered.foldl_faultEntry n r _ _
    (h.congr (t := s.setHold n ((s.hold n).filter fun e => !hit e)) rfl rfl rfl fun _ => List.Perm.refl _) hq

/-! ### Replay -/

/-- What a lookup finds is a grant of a window in use (R42). -/
theorem grant_of_entryAt {s : State} {n : NodeId} {addr : Nat} {m : MapEntry} (hm : s.entryAt n addr = some m) :
    s.grant m.window n = some (m.live, m.grant) := by
  obtain ⟨w, -, hw⟩ := List.mem_filterMap.1 (List.mem_of_find?_eq_some hm)
  obtain ⟨rfl, hg⟩ := mapEntry_eq_some_iff.1 hw
  exact hg

/-- A request that executes was found in a window in use (R81, R82). -/
theorem life_of_verdict {s : State} {n : NodeId} {k : Kind} {addr len : Nat} {earlier : List HoldEntry} {f : Matched}
    (h : s.verdict n k addr len earlier = .execute f) : ∃ v, (s.window f.window).life = some v := by
  obtain ⟨m, hm, -, rfl⟩ := verdict_found (.inl h)
  exact ⟨m.live, (grant_eq_some_iff.1 (grant_of_entryAt hm)).1⟩

/-- A held entry leaves its queue and its request executes (R99). -/
theorem State.Registered.executeEntry {s : State} {held : NodeId → List Tag} (h : s.Registered held) {n : NodeId}
    {e : HoldEntry} {l : List Tag} (hq : (held n).Perm (e.tag :: l)) {f : Matched} {v : Live}
    (hv : (s.window f.window).life = some v) (q : Request) :
    ((s.lowerHeld e.window n).beginExecution n e.tag q f).Registered (Function.update held n l) ∧
      ((s.lowerHeld e.window n).beginExecution n e.tag q f).hold = s.hold := by
  obtain ⟨v', hv'⟩ : ∃ v', ((s.lowerHeld e.window n).window f.window).life = some v' := by
    rw [State.lowerHeld, life_updateLive]
    split
    · exact ⟨_, congrArg _ hv⟩
    · exact ⟨v, hv⟩
  have hlow : (s.lowerHeld e.window n).register = s.register := lowerHeld_register ..
  have hphases := phaseOf_of_tags (tag_of_register hlow)
  obtain ⟨-, -, -, -, -, -, hhold, -⟩ := beginExecution_record hv' n e.tag q
  refine ⟨?_, hhold.trans (hold_of_register hlow)⟩
  refine (h.free (t := s.setTag n e.tag none) hq (phaseOf_setTag ..) rfl rfl).beginExecution ?_ ?_ ?_ hv' q
  · rw [hphases]
    exact phaseOf_setTag ..
  · exact (transactions_of_register hlow).symm
  · exact (nextTransaction_of_register hlow).symm

/-- The replay of a queue keeps the law, told of the entries held again and of those still to be evaluated (R99). -/
theorem State.Registered.replayEntries (n : NodeId) (rest kept : List HoldEntry) {s : State}
    {held : NodeId → List Tag} (h : s.Registered held) (hq : held n = (kept ++ rest).map fun e => e.tag)
    (ho : ∀ m, m ≠ n → held m = s.heldTags m) :
    (replayEntries n kept rest s).state.Registered (replayEntries n kept rest s).state.heldTags := by
  induction rest generalizing kept s held with
  | nil =>
    refine h.congr rfl rfl rfl fun m => ?_
    rw [Machine.replayEntries, heldTags_update (hold_setHold_eq s n kept)]
    by_cases hm : m = n
    · subst hm
      simp [hq]
    · simp [hm, ho m hm]
  | cons e rest ih =>
    have hp : (held n).Perm (e.tag :: (kept ++ rest).map fun e => e.tag) := by
      rw [hq, ← List.map_cons (f := fun e : HoldEntry => e.tag)]
      exact List.perm_middle.map _
    have hother : ∀ {l : List Tag} {t : State}, t.hold = s.hold →
        ∀ m, m ≠ n → Function.update held n l m = t.heldTags m := by
      intro l t ht m hm
      rw [Function.update_of_ne hm, heldTags_of_hold ht, ho m hm]
    obtain ⟨x, hx, hphase⟩ := phaseOf_eq_some_iff.1 ((h.held_iff n e.tag).2 (hp.mem_iff.2 (List.mem_cons_self ..)))
    simp only [Machine.replayEntries, hx]
    split
    · rename_i f c _
      refine ih (kept ++ [{ e with cause := c }])
        (h.congr (t := s.setTag n e.tag (some { x with toMatched := f })) ?_ rfl rfl fun _ => List.Perm.refl _)
        (by simp [hq]) ho
      rw [phaseOf_setTag]
      exact phasesWith_self (phaseOf_eq_some_iff.2 ⟨x, hx, rfl⟩)
    · rename_i r _
      refine ih kept (h.faultEntry hp r) (by simp) (hother ?_)
      rw [hold_of_ledger (faultTag_ledger ..)]
      exact updateLive_hold ..
    · rename_i f hv
      obtain ⟨v, hlive⟩ := life_of_verdict hv
      obtain ⟨hregistered, hhold⟩ := h.executeEntry hp hlive ⟨x.kind, x.addr, x.len, x.data.getD []⟩
      exact ih kept hregistered (by simp) (hother hhold)

/-- A replay pass keeps the agreement (R99). -/
theorem State.TagsAgree.replay {s : State} (h : s.TagsAgree) (n : NodeId) : (s.replay n).state.TagsAgree :=
  (tagsAgree_iff _).2 (((tagsAgree_iff s).1 h).replayEntries n (s.hold n) [] rfl fun _ _ => rfl)

/-! ### Records and lost nodes -/

/-- A node that is lost gives up its tags and its held requests (R89, R107). -/
theorem State.TagsAgree.dropTags {s : State} (h : s.TagsAgree) (n : NodeId) :
    ((s.abandonTags n).dropHolds n).TagsAgree := by
  have hdrop : ((s.abandonTags n).dropHolds n).register = ((s.abandonTags n).setHold n []).register :=
    foldl_register (f := fun t (e : HoldEntry) => t.lowerHeld e.window n) _
      (fun t e => lowerHeld_register t e.window n) ((s.abandonTags n).hold n)
  have hagree : ((s.abandonTags n).setHold n []).TagsAgree := by
    rw [tagsAgree_iff] at h ⊢
    rw [heldTags_update (hold_setHold_eq (s.abandonTags n) n [])]
    refine h.abandon (n := n) (fun m u => ?_) rfl rfl
    have htag : ((s.abandonTags n).setHold n []).tag m u = if n = m then none else s.tag m u := by
      change Table.get (Table.get (Table.put s.tags n (Table.fill 32 none)) m) u = _
      rw [Table.get_put]
      split
      · exact Table.get_fill ..
      · rfl
    rw [State.phaseOf, htag]
    split <;> rfl
  exact hagree.of_register hdrop

/-- An outcome names nothing anew (R86). -/
theorem State.TagsAgree.noteOp {s : State} (h : s.TagsAgree) {x : Transaction} (hx : x ∈ s.transactions) (role : Role)
    (failed : Bool) (bytes : List Byte) : (s.noteOp x role failed bytes).TagsAgree := by
  rw [tagsAgree_iff] at h ⊢
  refine h.mapRecords (f := fun y => if y.id = x.id then x.afterOp role failed bytes else y) (fun y hy => ?_) rfl rfl rfl
  split
  · rename_i hid
    obtain rfl := eq_of_id h.idsOnce hy hx hid
    exact ⟨rfl, rfl, rfl⟩
  · exact ⟨rfl, rfl, rfl⟩

/-- A record leaves with its tag (R87, R88, R90). -/
theorem State.TagsAgree.closeRecord {s : State} (h : s.TagsAgree) {x : Transaction} (hx : x ∈ s.transactions) :
    (s.closeRecord x).TagsAgree := by
  obtain ⟨-, hhold, hrecords, hnext⟩ := answerTag_frame s x
  have hlow : (s.closeRecord x).register = ((s.answerTag x).dropRecord x).register := updateLive_register ..
  refine State.TagsAgree.of_register ?_ hlow
  rw [tagsAgree_iff] at h ⊢
  rw [heldTags_of_hold (t := (s.answerTag x).dropRecord x) hhold]
  refine h.close hx ?_ (congrArg (List.filter fun y : Transaction => y.id != x.id) hrecords) hnext
  funext m v
  have htag : ((s.answerTag x).dropRecord x).tag m v = _ := tag_answerTag s x m v
  rw [State.phaseOf, htag]
  cases x.tag with
  | none => simp [State.phaseOf]
  | some u =>
    simp only [Option.some.injEq, Option.elim_some, phasesWith]
    split <;> rfl

end Sys2Proof.Machine
end

section
/-! SUPPORT. What the part can do to requests and to fault capture records, said once, apart from device reset and the
release of a fault capture record. -/

namespace Sys2Proof.Machine

/-- From `s` to `t` requests are answered, held, executed, faulted or abandoned, and clear fault capture records may be
filled; the register is changed in no other way. -/
inductive State.Serves : State → State → Prop
  /-- The register is as it was. -/
  | frame {s t : State} (h : t.register = s.register) : Serves s t
  /-- One thing after another. -/
  | trans {s t u : State} (h : Serves s t) (h' : Serves t u) : Serves s u
  /-- A clear fault capture record is filled (R93). -/
  | captured {s : State} {n : NodeId} (h : s.capture n = none) (c : Capture) : Serves s (s.setCapture n (some c))
  /-- A request of a free tag is held (R83). -/
  | held {s : State} {n : NodeId} {u : Tag} (h : s.tag n u = none) (q : Request) (f : Matched) (c : Cause) :
    Serves s (s.takeHold n u q f c)
  /-- A request of a free tag begins execution (R84). -/
  | begun {s : State} {n : NodeId} {u : Tag} (h : s.tag n u = none) (q : Request) (f : Matched) :
    Serves s (s.beginExecution n u q f)
  /-- Entries made hopeless leave with a fault (R106). -/
  | faulted {s : State} (n : NodeId) (hit : HoldEntry → Bool) (r : FaultReason) : Serves s (s.faultHeld n hit r)
  /-- A replay pass (R99). -/
  | replayed {s : State} (n : NodeId) : Serves s (s.replay n).state
  /-- A node that is lost gives up its tags and its held requests (R89, R107). -/
  | dropped {s : State} (n : NodeId) : Serves s ((s.abandonTags n).dropHolds n)
  /-- A record takes the outcome of one of its operations (R86). -/
  | noted {s : State} {x : Transaction} (h : x ∈ s.transactions) (role : Role) (failed : Bool) (bytes : List Byte) :
    Serves s (s.noteOp x role failed bytes)
  /-- A record leaves with its tag (R87, R88, R90). -/
  | closed {s : State} {x : Transaction} (h : x ∈ s.transactions) : Serves s (s.closeRecord x)

namespace State.Serves

theorem refl (s : State) : s.Serves s := .frame rfl

/-- What leaves the register as it was is done after what may not. -/
theorem then_frame {s t u : State} (h : s.Serves t) (hu : u.register = t.register) : s.Serves u := h.trans (.frame hu)

/-- What leaves the register as it was is done before what may not. -/
theorem after_frame {s t u : State} (ht : t.register = s.register) (h : t.Serves u) : s.Serves u :=
  .trans (.frame ht) h

theorem foldl {α : Type} {f : State → α → State} (hf : ∀ (s : State) x, s.Serves (f s x)) (l : List α) (s : State) :
    s.Serves (l.foldl f s) := by
  induction l generalizing s with
  | nil => exact .refl s
  | cons x l ih => exact (hf s x).trans (ih _)

/-- Whatever serves requests keeps queues, tags and records in agreement. -/
theorem tagsAgree {s t : State} (h : s.Serves t) (hs : s.TagsAgree) : t.TagsAgree := by
  induction h with
  | frame h => exact hs.of_register h
  | trans _ _ ih ih' => exact ih' (ih hs)
  | captured _ c => exact hs.setCapture ..
  | held h q f c => exact hs.takeHold h q f c
  | begun h q f => exact hs.beginExecution h q f
  | faulted n hit r => exact hs.faultHeld n hit r
  | replayed n => exact hs.replay n
  | dropped n => exact hs.dropTags n
  | noted h role failed bytes => exact hs.noteOp h role failed bytes
  | closed h => exact hs.closeRecord h

end State.Serves

/-! ### Requests and replay -/

theorem captureFault_serves (s : State) (n : NodeId) (c : Capture) : s.Serves (s.captureFault n c) := by
  unfold State.captureFault
  split
  · rename_i h
    simp only [Bool.and_eq_true, Option.isNone_iff_eq_none] at h
    exact (State.Serves.captured h.2 c).then_frame (raise_register ..)
  · exact .refl s

theorem sendFault_serves (s : State) (n : NodeId) (c : Capture) : s.Serves (s.sendFault n c) :=
  .after_frame (send_register ..) (captureFault_serves ..)

theorem offerHold_serves {s : State} {n : NodeId} {u : Tag} (hu : s.tag n u = none) (q : Request) (f : Matched)
    (c : Cause) : s.Serves (s.offerHold n u q f c) := by
  unfold State.offerHold
  split
  · exact .frame (send_register ..)
  · exact .held hu q f c

theorem settle_serves {s : State} {n : NodeId} {u : Tag} (hu : s.tag n u = none) (q : Request) :
    s.Serves (s.settle n u q) := by
  unfold State.settle
  split
  · exact sendFault_serves ..
  · exact offerHold_serves hu ..
  · exact .begun hu ..

section Deeds

variable (s : State)

theorem arrive_serves (n : NodeId) (u : Tag) (q : Request) : s.Serves (s.arrive n u q) := by
  unfold State.arrive
  split
  · exact .refl s
  · exact .frame (raise_register ..)
  · exact sendFault_serves ..
  · exact sendFault_serves ..
  · split_ifs with ht hb
    · exact .frame (raise_register ..)
    · exact sendFault_serves ..
    · exact settle_serves (by simpa using ht) q

theorem replayWindow_serves (w : WindowId) : s.Serves (s.replayWindow w).state := by
  have hfold : ∀ (l : List NodeId) (p : Pass), s.Serves p.state → s.Serves (l.foldl (Pass.node w) p).state := by
    intro l
    induction l with
    | nil => exact fun _ hp => hp
    | cons n l ih =>
      intro p hp
      refine ih _ ?_
      unfold Pass.node
      split
      · exact hp.trans (.replayed n)
      · exact hp
  exact hfold _ _ (.refl s)

theorem expireHolds_serves (n : NodeId) (t : Nat) : s.Serves (s.expireHolds n t) :=
  (State.Serves.faulted n _ .holdExpired).trans (.replayed n)

/-! ### Links and grants -/

theorem enterFencing_serves (n : NodeId) : s.Serves (s.enterFencing n) := by
  have htold : ((s.send n .fenceNotice).setLink n .fencing).register = s.register := by simp
  exact (State.Serves.after_frame htold (.faulted n (fun _ => true) .fenced)).then_frame (endFenceDrain_register ..)

theorem unlist_serves (w : WindowId) (n : NodeId) : s.Serves (s.unlist w n) := by
  have hdelisted : (s.delist w n).register = s.register := (updateGrant_register ..).trans (setMap_register ..)
  rw [unlist_eq]
  exact (State.Serves.after_frame hdelisted (.faulted n (fun e => e.window == w) .revoked)).then_frame
    (removeIfDrained_register ..)

theorem unlistRevoking_serves (n : NodeId) : s.Serves (s.unlistRevoking n) := by
  have hone : ∀ (s : State) (x : Byte × WindowId), s.Serves (s.unlist x.2 n) := fun s x => unlist_serves s x.2 n
  exact .foldl hone (s.pendingRevocations n) s

theorem dropNode_serves (n : NodeId) : s.Serves (s.dropNode n) :=
  (State.Serves.after_frame (clearOutbound_register s n) (.dropped n)).trans (unlistRevoking_serves ..)

theorem hello_serves (n : NodeId) (identity : Word) : s.Serves (s.hello n identity) := by
  have hr : s.Serves (s.restart n identity) := (dropNode_serves s n).then_frame (by simp [State.restart])
  unfold State.hello
  split
  · exact .refl s
  · exact .frame (by simp [State.firstHello])
  all_goals exact hr

theorem acknowledge_serves (n : NodeId) (number : Byte) : s.Serves (s.acknowledge n number) := by
  unfold State.acknowledge
  split
  · exact .refl s
  · split
    · exact unlist_serves ..
    · exact .frame (raise_register ..)

theorem deliver_serves (n : NodeId) (m : Inbound) : s.Serves (s.deliver n m) := by
  cases m with
  | hello identity => exact hello_serves ..
  | read t addr len => exact arrive_serves ..
  | write t addr len data => exact arrive_serves ..
  | revokeAck number => exact acknowledge_serves ..

theorem forceRemoval_serves (w : WindowId) (n : NodeId) : s.Serves (s.forceRemoval w n) := by
  have hforced : s.Serves ((s.unlist w n).raise (.revokeForced w)) := (unlist_serves s w n).then_frame (raise_register ..)
  unfold State.forceRemoval State.policyFence
  split
  · exact hforced.trans (enterFencing_serves ..)
  · exact hforced

theorem withdraw_serves (w : WindowId) (v : Live) (n : NodeId) (g : GrantRecord) : s.Serves (s.withdraw w v n g) := by
  unfold State.withdraw
  split
  · exact .frame (sendNotice_register ..)
  · exact unlist_serves ..

theorem retireGrant_serves (w : WindowId) (n : NodeId) : s.Serves (State.retireGrant w s n) := by
  unfold State.retireGrant
  split
  · exact .refl s
  · split
    · exact withdraw_serves ..
    all_goals exact .refl s

theorem retire_serves (w : WindowId) : s.Serves (s.retire w) := by
  have hfault : ∀ (s : State) (n : NodeId), s.Serves (s.faultHeld n (fun e => e.window == w) .windowRetired) :=
    fun s n => .faulted n _ _
  have hbegun := State.Serves.after_frame
    (updateLive_register s w fun v => { v with state := .retiring, quietPending := false }) (.foldl hfault allNodes _)
  unfold State.retire
  exact (hbegun.trans (.foldl (fun s n => retireGrant_serves s w n) allNodes _)).then_frame (retireIfEmpty_register ..)

/-! ### The Copy Engine and the ends of operations -/

theorem enterAborting_serves (j : SlotId) (r : AbortReason) : s.Serves (s.enterAborting j r) := by
  unfold State.enterAborting
  split
  · rename_i job mark _
    have hturned : s.Serves ((s.setSlot j (.aborting job r)).endWaiting j) := .frame (by simp)
    simp only []
    refine .then_frame ?_ (lookDrain_register ..)
    split
    · exact hturned.trans (replayWindow_serves ..)
    · exact hturned
  all_goals exact .refl s

theorem mirrorFailed_serves (w : WindowId) : s.Serves (s.mirrorFailed w) := by
  unfold State.mirrorFailed
  split
  · exact .refl s
  · split
    · exact enterAborting_serves ..
    all_goals exact .refl s

theorem copyFailed_serves (j : SlotId) (r : AbortReason) : s.Serves (s.copyFailed j r) :=
  (State.Serves.after_frame (setPhase_register s .idle) (enterAborting_serves ..)).then_frame (endTurn_register _)

theorem copyReadEnded_serves (j : SlotId) (r : OpEnd) : r.state.Serves (State.copyReadEnded j r) := by
  unfold State.copyReadEnded
  split
  · split
    · exact copyFailed_serves ..
    · exact .frame (issueCopyWrite_register ..)
  all_goals exact .frame (endAbortedTurn_register ..)

theorem copyWriteEnded_serves (j : SlotId) (r : OpEnd) : r.state.Serves (State.copyWriteEnded j r) := by
  unfold State.copyWriteEnded
  split
  · split
    · exact copyFailed_serves ..
    · exact (State.Serves.after_frame (by simp) (replayWindow_serves ..)).then_frame (endTurn_register _)
  all_goals exact .frame (endAbortedTurn_register ..)

theorem endTransaction_serves {x : Transaction} (hx : x ∈ s.transactions) : s.Serves (s.endTransaction x) := by
  rw [endTransaction_eq]
  exact (State.Serves.closed hx).then_frame (by simp)

/-- The end of an operation notes its outcome, tells the job of a failed mirror write, and may end the transaction
(R86). -/
theorem operationEnded_serves {x : Transaction} (hx : x ∈ s.transactions) (role : Role) (r : OpEnd) :
    s.Serves (s.operationEnded x role r) := by
  have hnoted : s.Serves (s.noteOp x role r.failed r.bytes) := .noted hx ..
  have hmem : x.afterOp role r.failed r.bytes ∈ (s.noteOp x role r.failed r.bytes).transactions :=
    List.mem_map.2 ⟨x, hx, if_pos rfl⟩
  have htold : s.Serves (if r.failed && x.mirrored && role == .target then
        (s.noteOp x role r.failed r.bytes).mirrorFailed x.window else s.noteOp x role r.failed r.bytes) ∧
      x.afterOp role r.failed r.bytes ∈ (if r.failed && x.mirrored && role == .target then
        (s.noteOp x role r.failed r.bytes).mirrorFailed x.window
      else s.noteOp x role r.failed r.bytes).transactions := by
    split
    · exact ⟨hnoted.trans (mirrorFailed_serves ..), transactions_mirrorFailed _ _ hmem⟩
    · exact ⟨hnoted, hmem⟩
  unfold State.operationEnded
  simp only []
  split
  · exact htold.1
  · exact htold.1.trans (endTransaction_serves _ htold.2)

/-! ### Commands -/

theorem completeCreateWindow_serves (p : Vector Word 8) : s.Serves (completeCreateWindow p s).state := by
  unfold completeCreateWindow
  split
  · exact .refl s
  · split
    · exact .refl s
    · split
      · exact .refl s
      · split
        · exact .refl s
        · split
          · split <;> exact .refl s
          · exact .frame (makeWindow_register ..)

theorem completeGrant_serves (p : Vector Word 8) : s.Serves (completeGrant p s).state := by
  unfold completeGrant
  split
  · exact .refl s
  · split
    · exact .refl s
    · exact .refl s
    · split_ifs
      · exact .refl s
      · exact .refl s
      · unfold placeGrant
        split
        · exact .refl s
        · split_ifs
          · exact .refl s
          · split
            · exact .refl s
            · exact .frame (addGrant_register ..)

theorem completeSetRights_serves (p : Vector Word 8) : s.Serves (completeSetRights p s).state := by
  unfold completeSetRights
  split
  · exact .refl s
  · split
    · exact .refl s
    · exact .refl s
    · split
      · exact .refl s
      · split_ifs
        · exact .refl s
        · exact .frame (updateGrant_register ..)

theorem completeAdmitNode_serves (p : Vector Word 8) : s.Serves (completeAdmitNode p s).state := by
  unfold completeAdmitNode
  split
  · exact .refl s
  · split
    · exact .frame ((send_register ..).trans (setLink_register ..))
    · exact .refl s

theorem completeFenceNode_serves (p : Vector Word 8) : s.Serves (completeFenceNode p s).state := by
  unfold completeFenceNode
  split
  · exact .refl s
  · split
    · exact enterFencing_serves ..
    · exact .refl s

theorem completeSuspend_serves (p : Vector Word 8) : s.Serves (completeSuspend p s).state := by
  unfold completeSuspend
  split
  · exact .refl s
  · exact .frame (suspend_register ..)

theorem completeResume_serves (p : Vector Word 8) : s.Serves (completeResume p s).state := by
  unfold completeResume
  split
  · exact .refl s
  · rename_i w _ _
    simp only [carriedOut]
    exact .after_frame (updateLive_register s w fun v => { v with state := .active, quietPending := false })
      (replayWindow_serves ..)

theorem completeRevoke_serves (p : Vector Word 8) : s.Serves (completeRevoke p s).state := by
  unfold completeRevoke
  split
  · exact .refl s
  · split
    · exact .refl s
    · split
      · exact .refl s
      · split
        · exact .refl s
        · exact .refl s
        · split <;> exact withdraw_serves ..

theorem completeRetire_serves (p : Vector Word 8) : s.Serves (completeRetire p s).state := by
  unfold completeRetire
  split
  · exact .refl s
  · simp only [carriedOut]
    exact retire_serves ..

theorem completeMigrate_serves (p : Vector Word 8) : s.Serves (completeMigrate p s).state := by
  unfold completeMigrate
  split
  · exact .refl s
  · split
    · exact .refl s
    · split
      · exact .refl s
      · split
        · exact .refl s
        · split
          · split <;> exact .refl s
          · exact .frame (migrate_register ..)

theorem completeAbortJob_serves (p : Vector Word 8) : s.Serves (completeAbortJob p s).state := by
  unfold completeAbortJob
  split
  · exact .refl s
  · split
    · exact enterAborting_serves ..
    all_goals exact .refl s

theorem completeSettings_serves (p : Vector Word 8) :
    s.Serves (completeSetTimers p s).state ∧ s.Serves (completeSetPolicy p s).state := by
  unfold completeSetTimers completeSetPolicy
  constructor <;> split <;> exact .frame rfl

theorem completeAckAttention_serves (p : Vector Word 8) : s.Serves (completeAckAttention p s).state := by
  unfold completeAckAttention
  split
  · simp only []
    split
    · exact .refl s
    · exact .frame (ackSource_register ..)
  · exact .refl s

/-- Every command but RELEASE FAULT CAPTURE serves requests, if it does anything to them. -/
theorem complete_serves {c : Cmd} (hc : c ≠ .releaseFaultCapture) (p : Vector Word 8) :
    s.Serves (complete c p s).state := by
  cases c with
  | nop => exact .refl s
  | identify => exact .refl s
  | setTimers => exact (completeSettings_serves s p).1
  | setPolicy => exact (completeSettings_serves s p).2
  | getAttention => exact .frame (congrArg _ (completeGetAttention_state p s))
  | ackAttention => exact completeAckAttention_serves ..
  | createWindow => exact completeCreateWindow_serves ..
  | queryWindow => exact .frame (congrArg _ (completeQueryWindow_state p s))
  | queryFree => exact .frame (congrArg _ (completeQueryFree_state p s))
  | grant => exact completeGrant_serves ..
  | setRights => exact completeSetRights_serves ..
  | queryGrant => exact .frame (congrArg _ (completeQueryGrant_state p s))
  | lookup => exact .frame (congrArg _ (completeLookup_state p s))
  | admitNode => exact completeAdmitNode_serves ..
  | fenceNode => exact completeFenceNode_serves ..
  | readFaultCapture => exact .frame (congrArg _ (completeReadFaultCapture_state p s))
  | releaseFaultCapture => exact absurd rfl hc
  | suspend => exact completeSuspend_serves ..
  | resume => exact completeResume_serves ..
  | revoke => exact completeRevoke_serves ..
  | retire => exact completeRetire_serves ..
  | migrate => exact completeMigrate_serves ..
  | abortJob => exact completeAbortJob_serves ..
  | queryJob => exact .frame (congrArg _ (completeQueryJob_state p s))

end Deeds

/-! ### Events -/

/-- Every event other than device reset and a completion serves requests, if it does anything to them. -/
theorem exec_event_serves {s t : State} {i : Instr} (hc : commandRow i = none) (hr : ∀ cause, i ≠ .deviceReset cause)
    (hd : i ≠ .commandCompletion) (ht : exec i s = .next t) : s.Serves t := by
  have hcontrol : ∀ value : Word, s.Serves (s.writeControl value) := fun value => .frame (writeControl_register ..)
  cases i with
  | paramWrite slot value =>
    simp only [exec, execParamWrite] at ht
    exact Enduring.event (.refl s) (.frame (writeSlot_register ..)) ht
  | clearOverrun value =>
    simp only [exec, execClearOverrun] at ht
    exact Enduring.event (.refl s) (hcontrol value) ht
  | clearCmdDone value =>
    simp only [exec, execClearCmdDone] at ht
    exact Enduring.event (.refl s) (hcontrol value) ht
  | softReset value =>
    simp only [exec, execSoftReset] at ht
    exact Enduring.event (.refl s) (hcontrol value) ht
  | deviceReset cause => exact absurd rfl (hr cause)
  | resetRelease psz booten =>
    obtain rfl := Host.Outcome.next.inj ht
    split
    · exact .frame rfl
    · exact .refl s
  | bootInstall eeprom =>
    simp only [exec, execBootInstall] at ht
    refine Enduring.event (.refl s) ?_ ht
    split
    · exact .frame (install_register s eeprom)
    · exact .refl s
  | linkUp n =>
    simp only [exec, execLinkUp] at ht
    refine Enduring.event (.refl s) ?_ ht
    split
    · exact .frame (setLink_register ..)
    · exact .refl s
  | linkDown n =>
    simp only [exec, execLinkDown] at ht
    refine Enduring.event (.refl s) ?_ ht
    split
    · exact .refl s
    · exact (dropNode_serves s n).then_frame (setLink_register ..)
  | hello n identity =>
    simp only [exec, execHello] at ht
    exact Enduring.event (.refl s) (hello_serves s n identity) ht
  | read n u addr len =>
    simp only [exec, execRead] at ht
    exact Enduring.event (.refl s) (arrive_serves s n u _) ht
  | write n u addr len data =>
    simp only [exec, execWrite] at ht
    refine Enduring.event (.refl s) ?_ ht
    split
    · exact arrive_serves s n u _
    · exact .frame (malformed_register ..)
  | revokeAck n number =>
    simp only [exec, execRevokeAck] at ht
    exact Enduring.event (.refl s) (acknowledge_serves s n number) ht
  | malformedMessage n bytes =>
    simp only [exec, execMalformedMessage] at ht
    refine Enduring.event (.refl s) ?_ ht
    split
    · exact .frame (malformed_register ..)
    · exact deliver_serves s n _
  | handToLinkLayer n =>
    simp only [exec, execHandToLinkLayer] at ht
    refine Enduring.event (.refl s) ?_ ht
    split
    · exact .refl s
    · exact .frame (setPort_register ..)
  | transactionOperationEnd c dramFault =>
    simp only [exec, execTransactionOperationEnd] at ht
    refine Enduring.event (.refl s) ?_ ht
    split
    · exact .refl s
    · split
      · exact .refl s
      · split
        · exact .refl s
        · rename_i x hx
          exact .after_frame (endOp_register s c _ _ dramFault)
            (operationEnded_serves (s.endOp c _ _ dramFault).state (List.mem_of_find?_eq_some hx) ..)
  | holdExpiry n =>
    simp only [exec, execHoldExpiry] at ht
    refine Enduring.event (.refl s) ?_ ht
    split
    · exact .refl s
    · split
      · exact .refl s
      · rename_i hu
        exact .after_frame (reach_register hu) (expireHolds_serves ..)
  | revokeDeadline w n =>
    simp only [exec, execRevokeDeadline] at ht
    refine Enduring.event (.refl s) ?_ ht
    split
    · exact .refl s
    · split
      · exact .refl s
      · rename_i hu
        exact .after_frame (reach_register hu) (forceRemoval_serves ..)
  | copyReadEnd dramFault =>
    simp only [exec, execCopyReadEnd] at ht
    refine Enduring.event (.refl s) ?_ ht
    split
    · split
      · exact .refl s
      · exact .after_frame (endOp_register ..) (copyReadEnded_serves ..)
    all_goals exact .refl s
  | copyWriteEnd dramFault =>
    simp only [exec, execCopyWriteEnd] at ht
    refine Enduring.event (.refl s) ?_ ht
    split
    · split
      · exact .refl s
      · exact .after_frame (endOp_register ..) (copyWriteEnded_serves ..)
    all_goals exact .refl s
  | pacingEnd =>
    simp only [exec, execPacingEnd] at ht
    refine Enduring.event (.refl s) ?_ ht
    split
    · split
      · exact .refl s
      · rename_i hu
        exact .frame ((startTurn_register _).trans ((setPhase_register ..).trans (reach_register hu)))
    all_goals exact .refl s
  | commandCompletion => exact absurd rfl hd
  | _ => simp [commandRow] at hc

theorem code_of_ofCode {code : Word} {c : Cmd} (h : Cmd.ofCode code = some c) : c.code = code := by
  simpa using List.find?_some h

/-- Every completion but that of RELEASE FAULT CAPTURE serves requests, if it does anything to them. -/
theorem completion_serves {s t : State} (hc : ∀ p, ¬s.completing .releaseFaultCapture p)
    (ht : exec .commandCompletion s = .next t) : s.Serves t := by
  cases hh : s.resetHeld with
  | true =>
    rw [exec, execCommandCompletion, event_held hh] at ht
    exact Host.Outcome.next.inj ht ▸ .refl s
  | false =>
    rw [exec, execCommandCompletion, event_free hh] at ht
    obtain rfl := Host.Outcome.next.inj ht
    split
    · exact .refl s
    · rename_i taken htaken
      refine .then_frame (t := (runTaken taken s).state) ?_ rfl
      unfold runTaken
      split
      · rename_i c hcode
        refine complete_serves s (fun hrelease => hc taken.params ⟨hh, ?_⟩) _
        rw [htaken, ← hrelease, code_of_ofCode hcode]
      · exact .refl s

/-- Every command and event serves requests, device reset and the release of a fault capture record apart (R165,
R95). -/
theorem exec_serves {s t : State} (i : Instr) (ht : exec i s = .next t) :
    s.Serves t ∨ (∃ cause, i = .deviceReset cause) ∨
      (i = .commandCompletion ∧ ∃ p, s.completing .releaseFaultCapture p) := by
  cases hc : commandRow i with
  | some code =>
    rw [exec_of_commandRow hc] at ht
    exact .inl (Enduring.event (.refl s) (.frame (writeCommand_register s code)) ht)
  | none =>
    by_cases hr : ∃ cause, i = .deviceReset cause
    · exact .inr (.inl hr)
    · by_cases hd : i = .commandCompletion
      · by_cases hp : ∃ p, s.completing .releaseFaultCapture p
        · exact .inr (.inr ⟨hd, hp⟩)
        · exact .inl (completion_serves (fun p h => hp ⟨p, h⟩) (hd ▸ ht))
      · exact .inl (exec_event_serves hc (fun cause hi => hr ⟨cause, hi⟩) hd ht)

/-! ### The invariant -/

theorem tagsAgree_deviceReset (s : State) (cause : ResetCause) : (s.deviceReset cause).TagsAgree := by
  cases cause <;> exact tagsAgree_reset.of_register rfl

theorem completeReleaseFaultCapture_tagsAgree {s : State} (h : s.TagsAgree) (p : Vector Word 8) :
    (completeReleaseFaultCapture p s).state.TagsAgree := by
  unfold completeReleaseFaultCapture
  split
  · exact h
  · exact h.setCapture ..

theorem State.TagsAgree.exec {s t : State} (h : s.TagsAgree) (i : Instr) (ht : exec i s = .next t) : t.TagsAgree := by
  rcases exec_serves i ht with hserves | ⟨cause, rfl⟩ | ⟨rfl, p, hp⟩
  · exact hserves.tagsAgree h
  · obtain rfl := Host.Outcome.next.inj ht
    exact tagsAgree_deviceReset s cause
  · obtain rfl := Host.Outcome.next.inj ((commandCompletion_of_completing hp).symm.trans ht)
    exact (completeReleaseFaultCapture_tagsAgree h p).of_register rfl

/-- Settles O55: whatever a step does to requests keeps hold queues, tags and records naming each other. -/
theorem stepKeepsTagsAgree : Obligations.StepKeepsTagsAgree := by
  intro s t h ht
  unfold step at ht
  split at ht
  · obtain rfl := Host.Outcome.next.inj ht
    exact h.of_register (tick_register s)
  · rename_i i rest _
    have hpopped : ({ s with pending := rest } : State).TagsAgree := h.of_register rfl
    exact hpopped.exec i ht

end Sys2Proof.Machine
end

section
/-! SUPPORT. Fault capture records: what fills them and what they outlast, and their two commands (chapter 5). -/

namespace Sys2Proof.Machine

/-! ### Valid records are frozen (R93) -/

/-- Every fault capture record that is valid in `s` stands in `t`. -/
structure State.Freezes (s t : State) : Prop where
  stands : ∀ n x, s.capture n = some x → t.capture n = some x

namespace State.Freezes

theorem of_captures {s t : State} (h : t.captures = s.captures) : s.Freezes t := by
  refine ⟨fun n x hx => ?_⟩
  rw [State.capture, h]
  exact hx

theorem refl (s : State) : s.Freezes s := ⟨fun _ _ hx => hx⟩

theorem trans {s t u : State} (h : s.Freezes t) (h' : t.Freezes u) : s.Freezes u :=
  ⟨fun n x hx => h'.stands n x (h.stands n x hx)⟩

end State.Freezes

section Frames

variable (s : State)

theorem captures_of_register {s t : State} (h : t.register = s.register) : t.captures = s.captures :=
  congrArg Register.captures h

theorem captureFault_freezes (n : NodeId) (c : Capture) : s.Freezes (s.captureFault n c) := by
  refine ⟨fun m x hx => ?_⟩
  rw [capture_captureFault, if_neg]
  · exact hx
  · rintro ⟨rfl, -, hclear⟩
    simp [hclear] at hx

theorem sendFault_freezes (n : NodeId) (c : Capture) : s.Freezes (s.sendFault n c) :=
  .trans (.of_captures (captures_of_register (send_register ..))) (captureFault_freezes ..)

theorem faultTag_freezes (n : NodeId) (u : Tag) (r : FaultReason) : s.Freezes (s.faultTag n u r) := by
  unfold State.faultTag
  split
  · exact .refl s
  · exact .trans (.of_captures (setTag_captures ..)) (sendFault_freezes ..)

theorem faultEntry_freezes (n : NodeId) (r : FaultReason) (e : HoldEntry) : s.Freezes (s.faultEntry n r e) :=
  .trans (.of_captures (updateLive_captures ..)) (faultTag_freezes ..)

theorem faultHeld_freezes (n : NodeId) (hit : HoldEntry → Bool) (r : FaultReason) : s.Freezes (s.faultHeld n hit r) := by
  have hfold : ∀ (l : List HoldEntry) (t : State), t.Freezes (l.foldl (State.faultEntry n r) t) := by
    intro l
    induction l with
    | nil => exact .refl
    | cons e l ih => exact fun t => (faultEntry_freezes t n r e).trans (ih _)
  exact .trans (.of_captures (setHold_captures ..)) (hfold _ _)

theorem captures_foldl_issueFor (q : Request) (id : Nat) (ops : List TransactionOp) :
    (ops.foldl (State.issueFor q id) s).captures = s.captures := by
  induction ops generalizing s with
  | nil => rfl
  | cons o ops ih => exact ih _

theorem captures_beginExecution (n : NodeId) (u : Tag) (q : Request) (f : Matched) :
    (s.beginExecution n u q f).captures = s.captures := by
  unfold State.beginExecution
  split
  · rfl
  · exact (updateLive_captures ..).trans ((setTag_captures ..).trans (captures_foldl_issueFor ..))

theorem replayEntries_freezes (n : NodeId) (rest kept : List HoldEntry) :
    s.Freezes (replayEntries n kept rest s).state := by
  induction rest generalizing kept s with
  | nil => exact .of_captures (setHold_captures ..)
  | cons e rest ih =>
    simp only [replayEntries]
    split
    · exact ih ..
    · split
      · exact .trans (.of_captures (setTag_captures ..)) (ih ..)
      · exact (faultEntry_freezes s n _ e).trans (ih ..)
      · exact .trans (.of_captures ((captures_beginExecution ..).trans (updateLive_captures ..))) (ih ..)

theorem answerTag_freezes (x : Transaction) : s.Freezes (s.answerTag x) := by
  unfold State.answerTag State.completeTag
  split
  · exact .refl s
  · split
    · exact faultTag_freezes ..
    · exact .of_captures ((setTag_captures ..).trans (captures_of_register (send_register ..)))

end Frames

/-- Whatever serves requests leaves valid fault capture records as they are (R93). -/
theorem State.Serves.freezes {s t : State} (h : s.Serves t) : s.Freezes t := by
  induction h with
  | frame h => exact .of_captures (captures_of_register h)
  | trans _ _ ih ih' => exact ih.trans ih'
  | @captured s n h c =>
    refine ⟨fun m x hx => ?_⟩
    rw [capture_setCapture, if_neg]
    · exact hx
    · rintro rfl
      simp [h] at hx
  | held _ q f c => exact .of_captures (updateLive_captures ..)
  | begun _ q f => exact .of_captures (captures_beginExecution ..)
  | faulted n hit r => exact faultHeld_freezes ..
  | replayed n => exact replayEntries_freezes ..
  | @dropped s n =>
    have hlowered : ((s.abandonTags n).dropHolds n).register = ((s.abandonTags n).setHold n []).register :=
      foldl_register (f := fun t (e : HoldEntry) => t.lowerHeld e.window n) _
        (fun t e => lowerHeld_register t e.window n) ((s.abandonTags n).hold n)
    exact .of_captures ((captures_of_register hlowered).trans (setHold_captures ..))
  | noted _ role failed bytes => exact .of_captures rfl
  | @closed s x _ => exact (answerTag_freezes s x).trans (.of_captures (updateLive_captures ..))

/-! ### The two commands -/

section Completions

variable {s : State} {p : Vector Word 8}

/-- A valid record is reported with valid set, its tag, kind, address and reason (section 11.1.2, log 31). -/
theorem captureResults_some (x : Capture) :
    captureResults (some x) =
      [1, slotOf x.tag.val, slotOf (kindCode x.kind)] ++ addressSlots x.addr ++ [slotOf x.reason.code] := rfl

/-- A clear record is reported with valid clear and the rest absent (R171). -/
theorem captureResults_none :
    captureResults none = [0, absentSlot, absentSlot, absentSlot, absentSlot, absentSlot] := rfl

theorem readFaultCapture_badParam (h : s.completing .readFaultCapture p) (hp : 3 < param p 0) :
    exec .commandCompletion s = .next (s.completed .badParam []) := by
  refine commandCompletion_of_refuse h ?_
  simp only [complete, completeReadFaultCapture, nodeParam_of_gt hp]

/-- READ FAULT CAPTURE reports the record as it stands (R94). -/
theorem readFaultCapture_reports (h : s.completing .readFaultCapture p) {n : NodeId} (hp : param p 0 = n.val) :
    exec .commandCompletion s = .next (s.completed .done (captureResults (s.capture n))) := by
  refine commandCompletion_of_carriedOut h ?_
  simp only [complete, completeReadFaultCapture, nodeParam_of_eq hp]

theorem releaseFaultCapture_badParam (h : s.completing .releaseFaultCapture p) (hp : 3 < param p 0) :
    exec .commandCompletion s = .next (s.completed .badParam []) := by
  refine commandCompletion_of_refuse h ?_
  simp only [complete, completeReleaseFaultCapture, nodeParam_of_gt hp]

/-- RELEASE FAULT CAPTURE reports the record as it stood and clears it (R95). -/
theorem releaseFaultCapture_clears (h : s.completing .releaseFaultCapture p) {n : NodeId} (hp : param p 0 = n.val) :
    exec .commandCompletion s = .next ((s.setCapture n none).completed .done (captureResults (s.capture n))) := by
  refine commandCompletion_of_carriedOut h ?_
  simp only [complete, completeReleaseFaultCapture, nodeParam_of_eq hp]

theorem setCapture_self {n : NodeId} {c : Option Capture} (h : s.capture n = c) : s.setCapture n c = s := by
  subst h
  simp [State.setCapture, State.capture]

/-- The release of a record leaves those of the other nodes as they are. -/
theorem capture_releaseFaultCapture {t : State} (h : s.completing .releaseFaultCapture p)
    (ht : exec .commandCompletion s = .next t) {n : NodeId} (hp : param p 0 ≠ n.val) : t.capture n = s.capture n := by
  by_cases hbad : 3 < param p 0
  · obtain rfl := Host.Outcome.next.inj ((releaseFaultCapture_badParam h hbad).symm.trans ht)
    rfl
  · have hm : param p 0 = (⟨param p 0, by omega⟩ : NodeId).val := rfl
    obtain rfl := Host.Outcome.next.inj ((releaseFaultCapture_clears h hm).symm.trans ht)
    rw [completed_capture, capture_setCapture, if_neg]
    exact fun hc => hp (congrArg Fin.val hc)

end Completions

/-- A command row that the port takes is in progress with the parameters of that moment (R151). -/
theorem writeCommand_completing {s : State} (h : s.portFree) (c : Cmd) :
    (s.writeCommand c.code).busy = true ∧ (s.writeCommand c.code).completing c s.params := by
  obtain ⟨hheld, hbooting, htaken⟩ := h
  have hfree : ¬s.busy = true := by simp [State.busy, hbooting, htaken]
  rw [State.writeCommand, if_neg hfree]
  exact ⟨Bool.or_true _, hheld, rfl⟩

/-- Settles O36: whatever serves requests fills clear records only, and the release clears the one it names. -/
theorem faultCaptureRelease : Obligations.FaultCaptureRelease := by
  refine ⟨fun i s t n x ht hx => ?_, fun s p h => ⟨releaseFaultCapture_badParam h, fun n hn => ⟨fun x hx => ?_,
    fun hx => ?_⟩⟩⟩
  · rcases exec_serves i ht with hserves | hreset | ⟨rfl, p, hp⟩
    · exact .inl (hserves.freezes.stands n x hx)
    · exact .inr (.inl hreset)
    · by_cases hn : param p 0 = n.val
      · exact .inr (.inr ⟨rfl, p, hp.2, hn⟩)
      · exact .inl ((capture_releaseFaultCapture hp ht hn).trans hx)
  · rw [releaseFaultCapture_clears h hn, hx, captureResults_some]
    rfl
  · rw [releaseFaultCapture_clears h hn, hx, captureResults_none, setCapture_self hx]

/-- Settles O37: the completion reports the record, and the state is the one it found. -/
theorem readFaultCaptureReports : Obligations.ReadFaultCaptureReports := by
  refine ⟨fun s h => ?_, fun s p h => ⟨readFaultCapture_badParam h, fun n hn => ⟨fun x hx => ?_, fun hx => ?_⟩⟩⟩
  · obtain ⟨hbusy, hcompleting⟩ := writeCommand_completing h .readFaultCapture
    exact ⟨_, (exec_of_commandRow rfl s).trans (event_free h.1 _), hbusy, hcompleting⟩
  · rw [readFaultCapture_reports h hn, hx, captureResults_some]
  · rw [readFaultCapture_reports h hn, hx, captureResults_none]

end Sys2Proof.Machine
end

section
/-! SUPPORT. The arrival of a request: its checks in order, the fault, the hold and the beginning of execution (chapter
5). -/

namespace Sys2Proof.Machine

/-! ### Faults and the format check -/

/-- A fault that is captured is answered, and the fault capture record takes it when clear (R91, R93). -/
theorem sendFault_captured {s : State} {n : NodeId} (h : s.link n ≠ .down) {c : Capture}
    (hc : c.reason.captured = true) :
    s.sendFault n c = (s.answered n (.completion c.tag (.fault c.reason))).captureTaken n c := by
  rw [State.sendFault, send_eq_answered h, State.captureFault, State.captureTaken, hc]
  cases hcap : (s.answered n (.completion c.tag (.fault c.reason))).capture n with
  | none => rfl
  | some x => rfl

/-- A fault that is not captured is answered only (R92). -/
theorem sendFault_uncaptured {s : State} {n : NodeId} (h : s.link n ≠ .down) {c : Capture}
    (hc : c.reason.captured = false) : s.sendFault n c = s.answered n (.completion c.tag (.fault c.reason)) := by
  rw [State.sendFault, send_eq_answered h, State.captureFault, hc]
  rfl

/-- The format check fails for a length of 0, one over 256, and a range across a 4 KiB boundary (R80). -/
theorem badFormat_iff (addr len : Nat) :
    badFormat addr len = true ↔ len = 0 ∨ 256 < len ∨ 4096 < addr % 4096 + len := by
  simp only [badFormat, Bool.or_eq_true, beq_iff_eq, decide_eq_true_eq, or_assoc]
  exact Iff.rfl

section Arrivals

variable {s : State} {k : Kind} {n : NodeId} {t : Tag} {addr : BitVec 40} {len : BitVec 16} {data : List Byte}
  (h : s.resetHeld = false) (hc : carries k len data) (hl : s.link n = .admitted) (ht : s.tag n t = none)
include h hc hl ht

/-- A request of an ADMITTED node under a free tag has its format checked first (R79, R80). -/
theorem exec_arrival_admitted :
    exec (arrival k n t addr len data) s = .next (if badFormat addr.toNat len.toNat then
      s.sendFault n ⟨t, k, addr.toNat, .badRequest⟩ else s.settle n t ⟨k, addr.toNat, len.toNat, data⟩) := by
  rw [exec_arrival h hc]
  simp [State.arrive, hl, ht]

/-- A request past its format check goes on to the lookup (R81). -/
theorem exec_arrival_settle (h1 : 1 ≤ len.toNat) (h2 : len.toNat ≤ 256) (h3 : addr.toNat % 4096 + len.toNat ≤ 4096) :
    exec (arrival k n t addr len data) s = .next (s.settle n t ⟨k, addr.toNat, len.toNat, data⟩) := by
  have hgood : ¬badFormat addr.toNat len.toNat = true := by
    rw [badFormat_iff]
    omega
  rw [exec_arrival_admitted h hc hl ht, if_neg hgood]

end Arrivals

/-! ### The verdict -/

section Verdicts

variable {s : State} {n : NodeId} {k : Kind} {addr len : Nat} {earlier : List HoldEntry} {m : MapEntry}

theorem verdict_of_none (hm : s.entryAt n addr = none) : s.verdict n k addr len earlier = .fault .noWindow := by
  rw [State.verdict, hm]

/-- A request that fits in the range it was found in has its rights checked, then its window's state (R81, R82). -/
theorem verdict_of_fits (hm : s.entryAt n addr = some m) (hfit : addr + len ≤ m.grant.base + m.live.bytes) :
    s.verdict n k addr len earlier =
      if m.grant.rights.pass k then s.windowVerdict k m (addr - m.grant.base) earlier else .fault .rights := by
  simp only [State.verdict, hm, if_neg (Nat.not_lt.2 hfit)]

/-- Rights pass every READ, and a WRITE under READ_WRITE (R44). -/
theorem pass_iff (r : Rights) (k : Kind) : r.pass k = true ↔ k = .read ∨ r = .readWrite := by
  cases r <;> cases k <;> decide

theorem windowVerdict_retiring {offset : Nat} (h : m.live.state = .retiring) :
    s.windowVerdict k m offset earlier = .fault .windowRetired := if_pos h

/-- The mark is set on the chunk at the cursor of a COPYING slot (R82 condition 3). -/
theorem underCopy_iff {t : Slot} {chunk : Nat} :
    t.underCopy chunk = true ↔ ∃ job, t = .copying job true ∧ job.cursor = chunk * 4096 := by
  unfold Slot.underCopy
  split <;> simp [chunkBytes]

/-- A request of a window that a job moves meets its copy when it is a WRITE of the chunk under copy. -/
theorem meetsCopy_migrating {j : SlotId} {chunk : Nat} :
    s.meetsCopy (.migrating j) k chunk = true ↔
      k = .write ∧ ∃ job, s.slot j = .copying job true ∧ job.cursor = chunk * 4096 := by
  simp [State.meetsCopy, underCopy_iff]

/-- The window state lets a request of a chunk pass: ACTIVE, or MIGRATING without the chunk under copy (R82). -/
def State.letsPass (s : State) (st : LiveState) (k : Kind) (chunk : Nat) : Prop :=
  st = .active ∨ ∃ j, st = .migrating j ∧ (k = .read ∨ (s.slot j).mark = false ∨
    ∀ job, (s.slot j).job = some job → job.cursor ≠ chunk * 4096)

theorem State.letsPass.meetsCopy {st : LiveState} {chunk : Nat} (h : s.letsPass st k chunk) :
    s.meetsCopy st k chunk = false := by
  rcases h with rfl | ⟨j, rfl, hj⟩
  · rfl
  · rw [Bool.eq_false_iff, ne_eq, meetsCopy_migrating]
    rintro ⟨rfl, job, hslot, hcursor⟩
    simp [hslot, Slot.mark, Slot.job, hcursor] at hj

theorem State.letsPass.ne {st : LiveState} {chunk : Nat} (h : s.letsPass st k chunk) :
    st ≠ .retiring ∧ st ≠ .suspended := by
  rcases h with rfl | ⟨j, rfl, -⟩ <;> simp

/-- A request that nothing blocks executes (R82). -/
theorem windowVerdict_execute {offset : Nat} (h : s.letsPass m.live.state k (offset / 4096))
    (he : ∀ e ∈ earlier, e.window = m.window → e.chunk ≠ offset / 4096) :
    s.windowVerdict k m offset earlier = .execute (m.found offset) := by
  have hbehind : ¬(earlier.any fun e => e.window == m.window && e.chunk == chunkOf offset) = true := by
    simpa [chunkOf, chunkBytes] using he
  have hcopy : ¬s.meetsCopy m.live.state k (chunkOf offset) = true := by
    rw [Bool.not_eq_true]
    exact h.meetsCopy
  rw [State.windowVerdict, if_neg h.ne.1, if_neg h.ne.2, if_neg hcopy, if_neg hbehind]

/-- Why the window state or the entries before it hold a request of a chunk (R82). -/
def State.holdsBack (s : State) (k : Kind) (m : MapEntry) (chunk : Nat) (earlier : List HoldEntry) (c : Cause) : Prop :=
  m.live.state = .suspended ∧ c = .suspended ∨
    (∃ j job, m.live.state = .migrating j ∧ k = .write ∧ s.slot j = .copying job true ∧ job.cursor = chunk * 4096 ∧
      c = .chunkBusy) ∨
    s.letsPass m.live.state k chunk ∧ (∃ e ∈ earlier, e.window = m.window ∧ e.chunk = chunk) ∧ c = .behind

/-- A request that is held back is held with its cause (R82). -/
theorem windowVerdict_hold {offset : Nat} {c : Cause} (h : s.holdsBack k m (offset / 4096) earlier c) :
    s.windowVerdict k m offset earlier = .hold (m.found offset) c := by
  rcases h with ⟨hst, rfl⟩ | ⟨j, job, hst, hk, hslot, hcursor, rfl⟩ | ⟨hpass, ⟨e, he, hew, hec⟩, rfl⟩
  · simp [State.windowVerdict, hst]
  · have hcopy : s.meetsCopy (.migrating j) k (chunkOf offset) = true :=
      meetsCopy_migrating.2 ⟨hk, job, hslot, hcursor⟩
    simp [State.windowVerdict, hst, hcopy]
  · have hbehind : (earlier.any fun e => e.window == m.window && e.chunk == chunkOf offset) = true :=
      List.any_eq_true.2 ⟨e, he, by simp [hew, hec, chunkOf, chunkBytes]⟩
    have hcopy : ¬s.meetsCopy m.live.state k (chunkOf offset) = true := by
      rw [Bool.not_eq_true]
      exact hpass.meetsCopy
    rw [State.windowVerdict, if_neg hpass.ne.1, if_neg hpass.ne.2, if_neg hcopy, if_pos hbehind]

end Verdicts

section Settled

variable {s : State} {n : NodeId} {t : Tag} {q : Request}

theorem settle_of_fault {r : FaultReason} (h : s.verdict n q.kind q.addr q.len (s.hold n) = .fault r) :
    s.settle n t q = s.sendFault n ⟨t, q.kind, q.addr, r⟩ := by
  rw [State.settle, h]

theorem settle_of_hold {f : Matched} {c : Cause} (h : s.verdict n q.kind q.addr q.len (s.hold n) = .hold f c) :
    s.settle n t q = s.offerHold n t q f c := by
  rw [State.settle, h]

theorem settle_of_execute {f : Matched} (h : s.verdict n q.kind q.addr q.len (s.hold n) = .execute f) :
    s.settle n t q = s.beginExecution n t q f := by
  rw [State.settle, h]

end Settled

/-- Settles O30: each check that fails is the verdict, and its fault is sent. -/
theorem failedChecksAreFaulted : Obligations.FailedChecksAreFaulted := by
  refine ⟨fun s k n t addr len data h hc hl ht hbad => ?_, fun s k n t addr len data h hc hl ht h1 h2 h3 =>
    ⟨fun hm => ?_, fun m hm hfit => ⟨fun hk hr => ?_, fun hr hst => ?_⟩⟩⟩
  · have hup : s.link n ≠ .down := by simp [hl]
    rw [exec_arrival_admitted h hc hl ht, if_pos ((badFormat_iff ..).2 hbad), sendFault_captured hup rfl]
  · have hup : s.link n ≠ .down := by simp [hl]
    rw [exec_arrival_settle h hc hl ht h1 h2 h3, settle_of_fault (verdict_of_none hm), sendFault_captured hup rfl]
  · have hup : s.link n ≠ .down := by simp [hl]
    have hverdict : s.verdict n k addr.toNat len.toNat (s.hold n) = .fault .rights := by
      rw [verdict_of_fits hm hfit, if_neg]
      simp [pass_iff, hk, hr]
    rw [exec_arrival_settle h hc hl ht h1 h2 h3, settle_of_fault hverdict, sendFault_captured hup rfl]
  · have hup : s.link n ≠ .down := by simp [hl]
    have hverdict : s.verdict n k addr.toNat len.toNat (s.hold n) = .fault .windowRetired := by
      rw [verdict_of_fits hm hfit, if_pos ((pass_iff ..).2 hr), windowVerdict_retiring hst]
    rw [exec_arrival_settle h hc hl ht h1 h2 h3, settle_of_fault hverdict, sendFault_uncaptured hup rfl]

/-! ### The hold (R83, R97) -/

section Counts

variable {s : State} {w : WindowId} {n : NodeId} {v : Live} {g : GrantRecord}

/-- The counts of a grant and of its window rise and fall together (R10, R11). -/
theorem grant_adjust (b : Book) (f : Nat → Nat) (h : s.grant w n = some (v, g)) :
    (s.adjust b f w n).grant w n = some (b.onWindow f (v.updateGrant n (b.onGrant f)), b.onGrant f g) := by
  obtain ⟨hv, hg⟩ := grant_eq_some_iff.1 h
  refine grant_eq_some_iff.2 ⟨?_, ?_⟩
  · rw [State.adjust, life_updateLive, if_pos rfl, hv, Option.map_some]
  · have hgrants : (b.onWindow f (v.updateGrant n (b.onGrant f))).grant n = (v.updateGrant n (b.onGrant f)).grant n := by
      rw [Live.grant, onWindow_grants]
      rfl
    rw [hgrants, grant_updateGrant v n n (b.onGrant f) (onGrant_node b f), if_pos rfl, hg, Option.map_some]

theorem window_adjust_of_ne (b : Book) (f : Nat → Nat) {x : WindowId} (hx : x ≠ w) :
    (s.adjust b f w n).window x = s.window x := by
  rw [State.adjust, window_updateLive, if_neg (Ne.symm hx)]

end Counts

section Held

variable {s : State} {n : NodeId} {u : Tag} {q : Request} {f : Matched} {c : Cause}

theorem offerHold_refused (h : s.settings.holdLimit = 0 ∨ 8 ≤ (s.hold n).length) :
    s.offerHold n u q f c = s.send n (.completion u .retry) := if_pos h

theorem offerHold_taken (h1 : s.settings.holdLimit ≠ 0) (h2 : (s.hold n).length < 8) :
    s.offerHold n u q f c = s.takeHold n u q f c :=
  if_neg fun h => h.elim h1 (Nat.not_le.2 h2)

/-- A request that is held changes windows, hold queues and tags and sends nothing (R83). -/
theorem takeHold_frame {v : Live} (hv : (s.window f.window).life = some v) :
    s.takeHold n u q f c =
      { s with
        windows := (s.takeHold n u q f c).windows
        holds := (s.takeHold n u q f c).holds
        tags := (s.takeHold n u q f c).tags } := by
  have hlive : (((s.setHold n (s.hold n ++ [s.newEntry u f c])).setTag n u (some (q.heldEntry f))).window
      f.window).life = some v := hv
  rw [takeHold_eq, State.raiseHeld, updateLive_of_life hlive]
  rfl

theorem hold_takeHold_same : (s.takeHold n u q f c).hold n = s.hold n ++ [s.newEntry u f c] := by
  rw [hold_takeHold, Function.update_self]

theorem hold_takeHold_of_ne {m : NodeId} (hm : m ≠ n) : (s.takeHold n u q f c).hold m = s.hold m := by
  rw [hold_takeHold, Function.update_of_ne hm]

theorem tag_takeHold_of_ne {m : NodeId} {v : Tag} (hm : (m, v) ≠ (n, u)) :
    (s.takeHold n u q f c).tag m v = s.tag m v := by
  rw [tag_takeHold, if_neg]
  rintro ⟨rfl, rfl⟩
  exact hm rfl

end Held

/-- Settles O31: the verdict holds the request with its cause, and the hold queue takes it or does not. -/
theorem blockedRequestIsHeldOrRetried : Obligations.BlockedRequestIsHeldOrRetried := by
  intro s k n t addr len data m cause h hc hl ht h1 h2 h3 hm hfit hr hcause
  have hup : s.link n ≠ .down := by simp [hl]
  have hverdict : s.verdict n k addr.toNat len.toNat (s.hold n) =
      .hold (m.found (addr.toNat - m.grant.base)) cause := by
    rw [verdict_of_fits hm hfit, if_pos ((pass_iff ..).2 hr)]
    exact windowVerdict_hold hcause
  have hgrant := grant_of_entryAt hm
  rw [exec_arrival_settle h hc hl ht h1 h2 h3, settle_of_hold hverdict]
  refine ⟨fun hfull => ?_, fun hlimit hroom => ⟨_, rfl, ?_⟩⟩
  · rw [offerHold_refused hfull, send_eq_answered hup]
  · rw [offerHold_taken hlimit hroom]
    refine ⟨takeHold_frame (grant_eq_some_iff.1 hgrant).1, hold_takeHold_same, ?_,
      fun a b => tag_takeHold_of_ne, fun a => hold_takeHold_of_ne, fun w hw => ?_, ?_⟩
    · refine ⟨_, (tag_takeHold ..).trans (if_pos ⟨rfl, rfl⟩), rfl, rfl, rfl, rfl, rfl, rfl, rfl, ?_⟩
      rintro rfl
      rfl
    · exact window_adjust_of_ne (s := (s.setHold n _).setTag n t _) .held (· + 1) hw
    · obtain ⟨hlive, hg⟩ := grant_eq_some_iff.1
        (grant_adjust (s := (s.setHold n (s.hold n ++ [s.newEntry t (m.found (addr.toNat - m.grant.base)) cause])).setTag
          n t (some (Request.heldEntry ⟨k, addr.toNat, len.toNat, data⟩ (m.found (addr.toNat - m.grant.base)))))
          .held (· + 1) hgrant)
      exact ⟨_, _, hlive, hg, rfl, rfl, rfl, rfl⟩

/-! ### The beginning of execution (R84) -/

section Executing

variable {s : State}

/-- A pool operation that a transaction issues (R23, R84). -/
def TransactionOp.issued (q : Request) (id : Nat) (o : TransactionOp) : PoolOp :=
  { kind := q.kind, addr := o.addr, len := o.len, data := q.data, issuer := .transaction id o.role }

/-- The operations of a transaction change the channels alone. -/
theorem foldl_issueFor_frame (q : Request) (id : Nat) (ops : List TransactionOp) (s : State) :
    ops.foldl (State.issueFor q id) s = { s with channels := (ops.foldl (State.issueFor q id) s).channels } := by
  induction ops generalizing s with
  | nil => rfl
  | cons o ops ih => exact ih _

theorem channelOf_eq_iff {a : Nat} {c : ChannelId} : channelOf a = c ↔ a / 4096 % 4 = c.val := by
  rw [Fin.ext_iff]
  rfl

/-- Each operation joins the tail of the channel of its address, in the order of issue (R23, R24). -/
theorem channel_foldl_issueFor (q : Request) (id : Nat) (ops : List TransactionOp) (s : State) (c : ChannelId) :
    (ops.foldl (State.issueFor q id) s).channel c =
      s.channel c ++ (ops.filter fun o => o.addr / 4096 % 4 == c.val).map (TransactionOp.issued q id) := by
  induction ops generalizing s with
  | nil => simp
  | cons o ops ih =>
    have hone : (State.issueFor q id s o).channel c =
        if channelOf o.addr = c then s.channel c ++ [o.issued q id] else s.channel c := by
      rw [State.issueFor, State.issue, channel_setChannel]
      split
      · rename_i hch
        rw [← hch]
        rfl
      · rfl
    rw [List.foldl_cons, ih, hone]
    by_cases hch : o.addr / 4096 % 4 = c.val
    · rw [if_pos (channelOf_eq_iff.2 hch), List.filter_cons, if_pos (by simpa using hch)]
      simp
    · rw [if_neg (mt channelOf_eq_iff.1 hch), List.filter_cons, if_neg (by simpa using hch)]

variable {n : NodeId} {u : Tag} {q : Request} {f : Matched} {v : Live}

/-- The record of a request that begins execution (R76, R84). -/
def State.newRecord (s : State) (v : Live) (n : NodeId) (u : Tag) (q : Request) (f : Matched) : Transaction :=
  { id := s.nextTransaction, node := n, tag := some u, kind := q.kind, window := f.window, chunk := f.chunk,
    ops := (s.route v q.kind f.chunk).ops q f.offset, authoritative := (s.route v q.kind f.chunk).authoritative,
    readData := none }

/-- The state in which a request's record stands and its operations are issued, before its tag and the counts follow
(R84 steps 2 to 4). -/
def State.issuedFor (s : State) (v : Live) (n : NodeId) (u : Tag) (q : Request) (f : Matched) : State :=
  (s.newRecord v n u q f).ops.foldl (State.issueFor q s.nextTransaction)
    { s with transactions := s.transactions ++ [s.newRecord v n u q f], nextTransaction := s.nextTransaction + 1 }

theorem issuedFor_frame :
    s.issuedFor v n u q f =
      { s with
        transactions := s.transactions ++ [s.newRecord v n u q f]
        nextTransaction := s.nextTransaction + 1
        channels := (s.issuedFor v n u q f).channels } := foldl_issueFor_frame ..

/-- The operations of a request are as long as the request (R84). -/
theorem channel_issuedFor (c : ChannelId) :
    (s.issuedFor v n u q f).channel c =
      s.channel c ++ ((s.newRecord v n u q f).ops.filter fun o => o.addr / 4096 % 4 == c.val).map fun o =>
        ⟨q.kind, o.addr, q.len, q.data, .transaction s.nextTransaction o.role⟩ := by
  refine (channel_foldl_issueFor ..).trans (congrArg (s.channel c ++ ·) (List.map_congr_left fun o ho => ?_))
  obtain ⟨x, -, rfl⟩ := List.mem_map.1 (List.mem_of_mem_filter ho)
  rfl

/-- The beginning of execution under a window in use (R84). -/
theorem beginExecution_of_life (hv : (s.window f.window).life = some v) :
    s.beginExecution n u q f =
      ((s.issuedFor v n u q f).setTag n u (some (q.executingEntry f s.nextTransaction))).adjust .executing (· + 1)
        f.window n := by
  simp only [State.beginExecution, hv]
  rfl

/-- A request that begins execution makes its record, issues its operations, changes windows and tags, and sends nothing
(R84). -/
theorem beginExecution_frame (hv : (s.window f.window).life = some v) :
    s.beginExecution n u q f =
      { s with
        windows := (s.beginExecution n u q f).windows
        tags := (s.beginExecution n u q f).tags
        transactions := s.transactions ++ [s.newRecord v n u q f]
        nextTransaction := s.nextTransaction + 1
        channels := (s.issuedFor v n u q f).channels } := by
  have hlive : (((s.issuedFor v n u q f).setTag n u (some (q.executingEntry f s.nextTransaction))).window
      f.window).life = some v := by
    rw [issuedFor_frame]
    exact hv
  rw [beginExecution_of_life hv, State.adjust, updateLive_of_life hlive, issuedFor_frame]
  rfl

theorem tag_beginExecution (hv : (s.window f.window).life = some v) (m : NodeId) (w : Tag) :
    (s.beginExecution n u q f).tag m w =
      if n = m ∧ u = w then some (q.executingEntry f s.nextTransaction) else s.tag m w := by
  obtain ⟨-, -, -, -, -, -, -, htags⟩ := beginExecution_record hv n u q
  exact htags m w

theorem window_beginExecution_of_ne (hv : (s.window f.window).life = some v) {w : WindowId} (hw : w ≠ f.window) :
    (s.beginExecution n u q f).window w = s.window w := by
  rw [beginExecution_of_life hv, window_adjust_of_ne _ _ hw, issuedFor_frame]
  rfl

/-- The executing counts of the grant and the window rise together (R10). -/
theorem grant_beginExecution {g : GrantRecord} (hg : s.grant f.window n = some (v, g)) :
    (s.beginExecution n u q f).grant f.window n =
      some (Book.executing.onWindow (· + 1) (v.updateGrant n (Book.executing.onGrant (· + 1))),
        Book.executing.onGrant (· + 1) g) := by
  have hsame : ((s.issuedFor v n u q f).setTag n u (some (q.executingEntry f s.nextTransaction))).grant f.window n =
      some (v, g) := by
    rw [issuedFor_frame]
    exact hg
  rw [beginExecution_of_life (grant_eq_some_iff.1 hg).1, grant_adjust _ _ hsame]

end Executing

/-- The routing rule of a slot by the state and the place of the chunk (R139). -/
theorem slot_routes (job : Job) (home : Extent) (k : Kind) (chunk : Nat) :
    (∀ mark, chunk * 4096 < job.cursor →
      (Slot.copying job mark).route home .read chunk = ⟨[(.target, job.target)], .target⟩ ∧
      (Slot.copying job mark).route home .write chunk = ⟨[(.old, job.source), (.target, job.target)], .old⟩) ∧
    (∀ mark, job.cursor ≤ chunk * 4096 →
      (Slot.copying job mark).route home k chunk = ⟨[(.old, job.source)], .old⟩) ∧
    (∀ r, (Slot.aborting job r).route home k chunk = ⟨[(.old, job.source)], .old⟩) ∧
    (Slot.drainingOld job).route home k chunk = ⟨[(.target, job.target)], .target⟩ :=
  ⟨fun _ hlt => ⟨if_pos hlt, if_pos hlt⟩, fun _ hle => if_neg (Nat.not_lt.2 hle), fun _ => rfl, rfl⟩

/-- Settles O32: the verdict executes the request, and its record, operations, tag and counts are made in one event. -/
theorem unblockedRequestExecutes : Obligations.UnblockedRequestExecutes := by
  refine ⟨?_, fun s v k chunk => ⟨fun hst => ?_, fun j hst => ?_⟩, slot_routes⟩
  · intro s k n t addr len data m h hc hl ht h1 h2 h3 hm hfit hr hpass hbehind
    have hverdict : s.verdict n k addr.toNat len.toNat (s.hold n) =
        .execute (m.found (addr.toNat - m.grant.base)) := by
      rw [verdict_of_fits hm hfit, if_pos ((pass_iff ..).2 hr)]
      exact windowVerdict_execute hpass hbehind
    have hgrant := grant_of_entryAt hm
    have hlife : (s.window (m.found (addr.toNat - m.grant.base)).window).life = some m.live :=
      (grant_eq_some_iff.1 hgrant).1
    rw [exec_arrival_settle h hc hl ht h1 h2 h3, settle_of_execute hverdict]
    have hframe := beginExecution_frame (n := n) (u := t) (q := ⟨k, addr.toNat, len.toNat, data⟩) hlife
    refine ⟨_, _, rfl, ?_, rfl, ⟨_, congrArg State.transactions hframe, rfl, rfl, rfl, rfl, rfl, rfl, rfl, rfl, rfl⟩,
      congrArg State.nextTransaction hframe, fun c => (congrArg (State.channel · c) hframe).trans (channel_issuedFor c),
      ⟨_, (tag_beginExecution hlife ..).trans (if_pos ⟨rfl, rfl⟩), rfl, rfl, rfl, rfl, rfl⟩, fun a b hab => ?_,
      fun w hw => window_beginExecution_of_ne hlife hw, ?_⟩
    · rw [hframe]
    · rw [tag_beginExecution hlife, if_neg]
      rintro ⟨rfl, rfl⟩
      exact hab rfl
    · obtain ⟨hlive, hg⟩ := grant_eq_some_iff.1
        (grant_beginExecution (u := t) (q := ⟨k, addr.toNat, len.toNat, data⟩) (f := m.found _) hgrant)
      exact ⟨_, _, hlive, hg, rfl, rfl, rfl, rfl⟩
  · simp only [State.route, hst]
  · simp only [State.route, hst]

end Sys2Proof.Machine
end

section
/-! SUPPORT. What the Copy Engine and the drains leave as it was, what stays pending, and what a failed mirror write
leaves of ports and tags (R140, R144). -/

namespace Sys2Proof.Machine

/-! ### What the engine cannot touch -/

/-- A state with the records that the engine, its drains and the removal of grants can touch set aside, requests that
they replay apart. -/
def State.beyondEngine (s : State) : State :=
  { s.beyondRemovals with
    slots := State.reset.slots
    engine := State.reset.engine
    channels := State.reset.channels }

/-- What stands beyond removals stands beyond the engine. -/
theorem beyondEngine_of_removals {s t : State} (h : t.beyondRemovals = s.beyondRemovals) :
    t.beyondEngine = s.beyondEngine := by
  have : t.beyondRemovals.beyondEngine = s.beyondRemovals.beyondEngine := by rw [h]
  exact this

section OfEngine

variable {s t : State} (h : t.beyondEngine = s.beyondEngine)
include h

theorem port_of_engine : t.port = s.port := funext fun n => (congrArg (fun u : State => u.port n) h :)
theorem register_of_engine : t.register = s.register := (congrArg State.register h :)

end OfEngine

section Frames

variable (s : State)

@[simp] theorem setSlot_beyondEngine (j : SlotId) (t : Slot) : (s.setSlot j t).beyondEngine = s.beyondEngine := rfl
@[simp] theorem setPhase_beyondEngine (p : EnginePhase) : (s.setPhase p).beyondEngine = s.beyondEngine := rfl
@[simp] theorem release_beyondEngine (e : Extent) : (s.release e).beyondEngine = s.beyondEngine := rfl
@[simp] theorem raise_beyondEngine (f : Flag) : (s.raise f).beyondEngine = s.beyondEngine := rfl

@[simp] theorem updateLive_beyondEngine (w : WindowId) (f : Live → Live) :
    (s.updateLive w f).beyondEngine = s.beyondEngine := beyondEngine_of_removals (updateLive_removals ..)

@[simp] theorem tellDirectory_removals (w : WindowId) : (s.tellDirectory w).beyondRemovals = s.beyondRemovals := by
  unfold State.tellDirectory
  split
  · rfl
  · split <;> simp

@[simp] theorem readOrWait_beyondEngine (j : SlotId) (job : Job) : (s.readOrWait j job).beyondEngine = s.beyondEngine := by
  unfold State.readOrWait
  split <;> rfl

@[simp] theorem startTurn_beyondEngine : s.startTurn.beyondEngine = s.beyondEngine := by
  unfold State.startTurn
  split
  · rfl
  · split
    · rw [readOrWait_beyondEngine]
      rfl
    all_goals rfl

@[simp] theorem endWaiting_beyondEngine (j : SlotId) : (s.endWaiting j).beyondEngine = s.beyondEngine := by
  unfold State.endWaiting
  split <;> simp

@[simp] theorem resumeWaiting_beyondEngine (j : SlotId) : (s.resumeWaiting j).beyondEngine = s.beyondEngine := by
  unfold State.resumeWaiting
  split
  · split
    · simp
    all_goals rfl
  · rfl

@[simp] theorem lookDrain_beyondEngine (j : SlotId) : (s.lookDrain j).beyondEngine = s.beyondEngine := by
  unfold State.lookDrain
  split
  · split <;> simp [State.finish]
  · split <;> simp [State.finish]
  all_goals rfl

@[simp] theorem tellEngine_beyondEngine (w : WindowId) : (s.tellEngine w).beyondEngine = s.beyondEngine := by
  unfold State.tellEngine
  split
  · rfl
  · split
    · simp
    all_goals rfl

end Frames

/-! ### Pending flags -/

/-- Every flag pending in `s` is pending in `t`. -/
structure State.KeepsFlags (s t : State) : Prop where
  pending : ∀ f, s.isPending f = true → t.isPending f = true

namespace State.KeepsFlags

theorem of_attention {s t : State} (h : t.attention = s.attention) : s.KeepsFlags t := by
  refine ⟨fun f hf => ?_⟩
  rw [State.isPending, State.reasons, h]
  exact hf

theorem refl (s : State) : s.KeepsFlags s := ⟨fun _ hf => hf⟩

theorem trans {s t u : State} (h : s.KeepsFlags t) (h' : t.KeepsFlags u) : s.KeepsFlags u :=
  ⟨fun f hf => h'.pending f (h.pending f hf)⟩

end State.KeepsFlags

section Flags

variable (s : State)

theorem raise_keepsFlags (f : Flag) : s.KeepsFlags (s.raise f) := ⟨fun g hg => isPending_raise_of s g f hg⟩

theorem updateLive_keepsFlags (w : WindowId) (f : Live → Live) : s.KeepsFlags (s.updateLive w f) := by
  refine .of_attention ?_
  unfold State.updateLive
  split <;> rfl

theorem retireIfEmpty_keepsFlags (w : WindowId) : s.KeepsFlags (s.retireIfEmpty w) := by
  unfold State.retireIfEmpty
  split
  · exact .refl s
  · split
    · exact ⟨fun f hf => isPending_completeRetirement_of hf ..⟩
    · exact .refl s

theorem removeGrant_keepsFlags (w : WindowId) (n : NodeId) : s.KeepsFlags (s.removeGrant w n) :=
  ((updateLive_keepsFlags s w _).trans (raise_keepsFlags ..)).trans (retireIfEmpty_keepsFlags ..)

theorem removeIfDrained_keepsFlags (w : WindowId) (n : NodeId) : s.KeepsFlags (s.removeIfDrained w n) := by
  unfold State.removeIfDrained
  split
  · exact .refl s
  · split
    · exact removeGrant_keepsFlags ..
    · exact .refl s

theorem endFenceDrain_keepsFlags (n : NodeId) : s.KeepsFlags (s.endFenceDrain n) := by
  unfold State.endFenceDrain
  split
  · exact .trans (.of_attention (t := s.setLink n .fenced) rfl) (raise_keepsFlags ..)
  · exact .refl s

theorem tellDirectory_keepsFlags (w : WindowId) : s.KeepsFlags (s.tellDirectory w) := by
  unfold State.tellDirectory
  split
  · exact .refl s
  · split
    · exact (updateLive_keepsFlags s w _).trans (raise_keepsFlags ..)
    · exact .refl s

theorem finish_keepsFlags (j : SlotId) (job : Job) (o : JobOutcome) (e : Extent) (f : Flag) :
    s.KeepsFlags (s.finish j job o e f) :=
  .trans (.of_attention (t := (s.release e).setSlot j (.finished job o)) rfl)
    ((updateLive_keepsFlags _ job.window _).trans (raise_keepsFlags ..))

theorem lookDrain_keepsFlags (j : SlotId) : s.KeepsFlags (s.lookDrain j) := by
  unfold State.lookDrain
  split
  · split
    · exact finish_keepsFlags ..
    · exact .refl s
  · split
    · exact finish_keepsFlags ..
    · exact .refl s
  all_goals exact .refl s

theorem resumeWaiting_keepsFlags (j : SlotId) : s.KeepsFlags (s.resumeWaiting j) := by
  unfold State.resumeWaiting State.readOrWait
  split
  · split
    · split <;> exact .of_attention rfl
    all_goals exact .refl s
  · exact .refl s

theorem tellEngine_keepsFlags (w : WindowId) : s.KeepsFlags (s.tellEngine w) := by
  unfold State.tellEngine
  split
  · exact .refl s
  · split
    · exact (resumeWaiting_keepsFlags ..).trans (lookDrain_keepsFlags ..)
    all_goals exact .refl s

end Flags

/-! ### Ports that messages join -/

/-- From `s` to `t` messages join the tails of outbound queues; the ports are changed in no other way. -/
structure State.Appends (s t : State) : Prop where
  tails : ∀ n, ∃ more, t.port n = { s.port n with outbound := (s.port n).outbound ++ more }

namespace State.Appends

theorem of_port {s t : State} (h : t.port = s.port) : s.Appends t := ⟨fun n => ⟨[], by simp [h]⟩⟩

theorem refl (s : State) : s.Appends s := .of_port rfl

theorem trans {s t u : State} (h : s.Appends t) (h' : t.Appends u) : s.Appends u := by
  refine ⟨fun n => ?_⟩
  obtain ⟨more, hm⟩ := h.tails n
  obtain ⟨more', hm'⟩ := h'.tails n
  exact ⟨more ++ more', by simp [hm', hm]⟩

/-- Messages change no link state. -/
theorem link {s t : State} (h : s.Appends t) (n : NodeId) : t.link n = s.link n := by
  obtain ⟨more, hm⟩ := h.tails n
  rw [State.link, hm]
  rfl

end State.Appends

section Appending

variable (s : State)

theorem send_appends (n : NodeId) (m : Message) : s.Appends (s.send n m) := by
  refine ⟨fun x => ?_⟩
  rw [port_send]
  split
  · exact ⟨[m], rfl⟩
  · exact ⟨[], by simp⟩

theorem port_captureFault (n : NodeId) (c : Capture) : (s.captureFault n c).port = s.port := by
  unfold State.captureFault
  split <;> rfl

theorem faultTag_appends (n : NodeId) (u : Tag) (r : FaultReason) : s.Appends (s.faultTag n u r) := by
  unfold State.faultTag
  split
  · exact .refl s
  · exact .trans (.of_port (t := s.setTag n u none) rfl)
      ((send_appends ..).trans (.of_port (port_captureFault ..)))

theorem updateLive_appends (w : WindowId) (f : Live → Live) : s.Appends (s.updateLive w f) :=
  .of_port (funext fun n => updateLive_port s w f n)

theorem beginExecution_appends (n : NodeId) (u : Tag) (q : Request) (f : Matched) :
    s.Appends (s.beginExecution n u q f) := by
  cases hv : (s.window f.window).life with
  | none =>
    rw [beginExecution_of_free hv]
    exact .refl s
  | some v =>
    refine .of_port ?_
    rw [beginExecution_frame hv]
    rfl

theorem replayEntries_appends (n : NodeId) (rest kept : List HoldEntry) :
    s.Appends (replayEntries n kept rest s).state := by
  induction rest generalizing kept s with
  | nil => exact .of_port rfl
  | cons e rest ih =>
    simp only [replayEntries]
    split
    · exact ih ..
    · split
      · exact .trans (.of_port (t := s.setTag n e.tag _) rfl) (ih ..)
      · exact ((updateLive_appends s e.window _).trans (faultTag_appends ..)).trans (ih ..)
      · exact ((updateLive_appends s e.window _).trans (beginExecution_appends ..)).trans (ih ..)

/-- The passes for a window answer requests and do nothing else to the ports (R99, R100). -/
theorem replayWindow_appends (w : WindowId) : s.Appends (s.replayWindow w).state := by
  have hfold : ∀ (l : List NodeId) (p : Pass), s.Appends p.state → s.Appends (l.foldl (Pass.node w) p).state := by
    intro l
    induction l with
    | nil => exact fun _ hp => hp
    | cons n l ih =>
      intro p hp
      refine ih _ ?_
      unfold Pass.node
      split
      · exact hp.trans (replayEntries_appends ..)
      · exact hp
  exact hfold _ _ (.refl s)

end Appending

/-! ### Tags of requests that execute -/

/-- A replay pass changes no tag that none of its entries names. -/
theorem tag_replayEntries (n : NodeId) (rest kept : List HoldEntry) (s : State) {m : NodeId} {u : Tag}
    (hu : n = m → u ∉ rest.map fun e => e.tag) : (replayEntries n kept rest s).state.tag m u = s.tag m u := by
  induction rest generalizing kept s with
  | nil => rfl
  | cons e rest ih =>
    have hrest : n = m → u ∉ rest.map fun e => e.tag := fun hm hc => hu hm (List.mem_cons_of_mem _ hc)
    have hne : ¬(n = m ∧ e.tag = u) := fun hc => hu hc.1 (hc.2 ▸ List.mem_cons_self ..)
    simp only [replayEntries]
    split
    · exact ih _ s hrest
    · split
      · rw [ih _ _ hrest, tag_setTag, if_neg hne]
      · exact (ih _ _ hrest).trans ((tag_faultEntry s n m _ e u).trans (if_neg hne))
      · rename_i f hv
        obtain ⟨v, hlife⟩ := life_of_verdict hv
        obtain ⟨v', hlife'⟩ : ∃ v', ((s.lowerHeld e.window n).window f.window).life = some v' := by
          rw [State.lowerHeld, life_updateLive]
          split
          · exact ⟨_, congrArg _ hlife⟩
          · exact ⟨v, hlife⟩
        exact (ih _ _ hrest).trans (((tag_beginExecution hlife' m u).trans (if_neg hne)).trans (updateLive_tag ..))

/-- A replay pass leaves the tags of the requests that execute as they are (R99). -/
theorem tag_replay_executing {s : State} (h : s.TagsAgree) (n : NodeId) {m : NodeId} {u : Tag} {y : TagEntry} {id : Nat}
    (hy : s.tag m u = some y) (hp : y.phase = .executing id) : (s.replay n).state.tag m u = some y := by
  refine (tag_replayEntries n (s.hold n) [] s ?_).trans hy
  rintro rfl hc
  obtain ⟨e, he, rfl⟩ := List.mem_map.1 hc
  obtain ⟨x, hx, hheld⟩ := h.heldTag n e he
  rw [hx] at hy
  obtain rfl := Option.some.inj hy
  simp [hp] at hheld

theorem tag_replayWindow_executing {s : State} (h : s.TagsAgree) (w : WindowId) {m : NodeId} {u : Tag} {y : TagEntry}
    {id : Nat} (hy : s.tag m u = some y) (hp : y.phase = .executing id) :
    (s.replayWindow w).state.tag m u = some y := by
  have hfold : ∀ (l : List NodeId) (p : Pass), p.state.TagsAgree → p.state.tag m u = some y →
      (l.foldl (Pass.node w) p).state.tag m u = some y := by
    intro l
    induction l with
    | nil => exact fun _ _ hy => hy
    | cons n l ih =>
      intro p ha hy
      rw [List.foldl_cons]
      unfold Pass.node
      split
      · exact ih _ (ha.replay n) (tag_replay_executing ha n hy hp)
      · exact ih _ ha hy
  exact hfold _ _ h hy

/-! ### A failed mirror write -/

/-- What a failed mirror write does to requests is at most a replay of some window's held requests, the engine acting
before and after (R140, R144). -/
theorem mirrorFailed_cases (s : State) (w : WindowId) : ∃ a b : State,
    a.beyondEngine = s.beyondEngine ∧ (b = a ∨ ∃ x, b = (a.replayWindow x).state) ∧
      (s.mirrorFailed w).beyondEngine = b.beyondEngine := by
  have hsame : ∃ a b : State, a.beyondEngine = s.beyondEngine ∧ (b = a ∨ ∃ x, b = (a.replayWindow x).state) ∧
      s.beyondEngine = b.beyondEngine := ⟨s, s, rfl, .inl rfl, rfl⟩
  have habort : ∀ (j : SlotId) (r : AbortReason), ∃ a b : State, a.beyondEngine = s.beyondEngine ∧
      (b = a ∨ ∃ x, b = (a.replayWindow x).state) ∧ (s.enterAborting j r).beyondEngine = b.beyondEngine := by
    intro j r
    unfold State.enterAborting
    split
    · rename_i job mark _
      refine ⟨(s.setSlot j (.aborting job r)).endWaiting j, _, by simp, ?_, lookDrain_beyondEngine ..⟩
      split
      · exact .inr ⟨_, rfl⟩
      · exact .inl rfl
    all_goals exact hsame
  unfold State.mirrorFailed
  split
  · exact hsame
  · split
    · exact habort ..
    all_goals exact hsame

theorem mirrorFailed_appends (s : State) (w : WindowId) : s.Appends (s.mirrorFailed w) := by
  obtain ⟨a, b, ha, hb, hm⟩ := mirrorFailed_cases s w
  refine (State.Appends.of_port (port_of_engine ha)).trans (.trans ?_ (.of_port (port_of_engine hm)))
  rcases hb with rfl | ⟨x, rfl⟩
  · exact .refl b
  · exact replayWindow_appends a x

theorem tag_mirrorFailed_executing {s : State} (h : s.TagsAgree) (w : WindowId) {m : NodeId} {u : Tag} {y : TagEntry}
    {id : Nat} (hy : s.tag m u = some y) (hp : y.phase = .executing id) : (s.mirrorFailed w).tag m u = some y := by
  obtain ⟨a, b, ha, hb, hm⟩ := mirrorFailed_cases s w
  have hya : a.tag m u = some y := by rw [tag_of_register (register_of_engine ha), hy]
  rw [tag_of_register (register_of_engine hm)]
  rcases hb with rfl | ⟨x, rfl⟩
  · exact hya
  · exact tag_replayWindow_executing (h.of_register (register_of_engine ha)) x hya hp

end Sys2Proof.Machine
end

section
/-! SUPPORT. What the directory, the grant, the fence drain and the engine do when they are told that a transaction has
ended (R12, R70, R88, R122, R134, R142, R145). -/

namespace Sys2Proof.Machine

/-! ### The directory -/

/-- A window with nothing executing waits for no QUIET (R12). -/
def Live.hush (v : Live) : Live := if v.executing = 0 then { v with quietPending := false } else v

section Hush

variable (v : Live)

@[simp] theorem hush_state : v.hush.state = v.state := by unfold Live.hush; split <;> rfl
@[simp] theorem hush_executing : v.hush.executing = v.executing := by unfold Live.hush; split <;> rfl
@[simp] theorem hush_grants : v.hush.grants = v.grants := by unfold Live.hush; split <;> rfl
@[simp] theorem hush_home : v.hush.home = v.home := by unfold Live.hush; split <;> rfl

theorem grant_hush (n : NodeId) : v.hush.grant n = v.grant n := by rw [Live.grant, hush_grants]; rfl

end Hush

section Directory

variable {s : State} {w : WindowId} {v : Live}

/-- The directory is told of a transaction's end (R12). -/
theorem window_tellDirectory (hv : (s.window w).life = some v) :
    (s.tellDirectory w).window w = { s.window w with life := some v.hush } := by
  simp only [State.tellDirectory, hv]
  split
  · rename_i h
    rw [State.raise, setReasons_window, window_updateLive, if_pos rfl, hv, Option.map_some, Live.hush, if_pos h.1]
  · rename_i h
    have hsame : v.hush = v := by
      unfold Live.hush
      split
      · rename_i hx
        have hq : v.quietPending = false := by simpa [hx] using h
        rw [← hq]
      · rfl
    rw [hsame, ← hv]

theorem isPending_tellDirectory (hv : (s.window w).life = some v) (hx : v.executing = 0) (hq : v.quietPending = true) :
    (s.tellDirectory w).isPending (.quiet w) = true := by
  simp only [State.tellDirectory, hv, hx, hq, and_self, if_true]
  exact isPending_raise ..

theorem freeList_tellDirectory (s : State) (w : WindowId) : (s.tellDirectory w).freeList = s.freeList := by
  unfold State.tellDirectory
  split
  · rfl
  · split
    · exact freeList_updateLive ..
    · rfl

end Directory

/-! ### The grant -/

/-- A grant out of its window's list, with GRANT_REMOVED (R122). -/
def State.strike (s : State) (w : WindowId) (n : NodeId) : State :=
  (s.updateLive w fun v => { v with grants := v.grants.filter fun g => g.node != n }).raise (.grantRemoved w)

section Removal

variable {s : State} {w : WindowId} {n : NodeId} {v : Live} {g : GrantRecord}

theorem freeList_strike : (s.strike w n).freeList = s.freeList := freeList_updateLive ..

theorem window_strike (hv : (s.window w).life = some v) :
    (s.strike w n).window w =
      { s.window w with life := some { v with grants := v.grants.filter fun g => g.node != n } } := by
  rw [State.strike, State.raise, setReasons_window, window_updateLive, if_pos rfl, hv]
  rfl

theorem grant_strike (hv : (s.window w).life = some v) : (s.strike w n).grant w n = none := by
  rw [grant_of_life (congrArg WindowRecord.life (window_strike hv)), grant_filter_ne, if_pos rfl]
  rfl

theorem removeIfDrained_kept (h : ∀ v g, s.grant w n = some (v, g) → g.state = .draining → g.executing ≠ 0) :
    s.removeIfDrained w n = s := by
  unfold State.removeIfDrained
  split
  · rfl
  · rename_i vg hg
    exact if_neg fun hc => h vg.1 vg.2 hg hc.1 hc.2

/-- A DRAINING grant under which nothing executes is removed (R122). -/
theorem removeIfDrained_drained (hg : s.grant w n = some (v, g)) (hd : g.state = .draining) (hx : g.executing = 0) :
    s.removeIfDrained w n = (s.strike w n).retireIfEmpty w := by
  simp only [State.removeIfDrained, hg]
  exact if_pos ⟨hd, hx⟩

/-- A window that is not RETIRING, or that another node has a grant of, stays in use (R122). -/
theorem retireIfEmpty_strike_kept (hv : (s.window w).life = some v)
    (hk : v.state ≠ .retiring ∨ ∃ k ∈ v.grants, k.node ≠ n) : (s.strike w n).retireIfEmpty w = s.strike w n := by
  rw [State.retireIfEmpty, window_strike hv]
  refine if_neg fun ⟨hr, he⟩ => ?_
  rcases hk with hk | ⟨k, hk, hne⟩
  · exact hk hr
  · exact hne ((filter_ne_eq_nil_iff _ n).1 he k hk)

/-- A RETIRING window that is left without grants is freed (R122, R126). -/
theorem retireIfEmpty_strike_freed (hv : (s.window w).life = some v) (hr : v.state = .retiring)
    (ha : ∀ k ∈ v.grants, k.node = n) :
    (s.strike w n).retireIfEmpty w =
      (s.strike w n).completeRetirement w { v with grants := v.grants.filter fun g => g.node != n } := by
  rw [State.retireIfEmpty, window_strike hv]
  exact if_pos ⟨hr, (filter_ne_eq_nil_iff _ n).2 ha⟩

/-- The removal of a drained grant leaves a window that is not RETIRING in use, and its extent with it. -/
theorem removeIfDrained_stays (hv : (s.window w).life = some v) (hr : v.state ≠ .retiring) :
    (s.removeIfDrained w n).freeList = s.freeList ∧ ∃ b,
      ((s.removeIfDrained w n).window w).life = some b ∧ b.state = v.state ∧ b.executing = v.executing := by
  by_cases hd : ∃ v g, s.grant w n = some (v, g) ∧ g.state = .draining ∧ g.executing = 0
  · obtain ⟨v', g, hg, hst, hx⟩ := hd
    rw [removeIfDrained_drained hg hst hx, retireIfEmpty_strike_kept hv (.inl hr), window_strike hv]
    exact ⟨freeList_strike, _, rfl, rfl, rfl⟩
  · rw [removeIfDrained_kept fun v g hg hst hx => hd ⟨v, g, hg, hst, hx⟩]
    exact ⟨rfl, v, hv, rfl, rfl⟩

end Removal

/-! ### The engine -/

/-- From `s` to `t` windows leave MIGRATING and are changed in no other way (R15). -/
structure State.Restates (s t : State) : Prop where
  windows : ∀ w, t.window w = s.window w ∨
    ∃ v, (s.window w).life = some v ∧ t.window w = { s.window w with life := some { v with state := .active } }

namespace State.Restates

variable {s t : State}

theorem of_windows (h : t.windows = s.windows) : s.Restates t := ⟨fun w => .inl (congrArg (Table.get · w) h)⟩

theorem windowExecuting (h : s.Restates t) (w : WindowId) : t.windowExecuting w = s.windowExecuting w := by
  rcases h.windows w with hw | ⟨v, hv, hw⟩
  · rw [State.windowExecuting, hw]
    rfl
  · simp only [State.windowExecuting, hw, hv]

theorem life (h : s.Restates t) {w : WindowId} (hs : (s.window w).life.isSome = true) :
    (t.window w).life.isSome = true := by
  rcases h.windows w with hw | ⟨v, hv, hw⟩
  · rwa [hw]
  · rw [hw]
    rfl

theorem grant_none (h : s.Restates t) {w : WindowId} {n : NodeId} (hg : s.grant w n = none) : t.grant w n = none := by
  rcases h.windows w with hw | ⟨v, hv, hw⟩
  · rwa [grant_of_window hw]
  · rw [grant_of_life hv] at hg
    rw [grant_of_life (congrArg WindowRecord.life hw)]
    exact Option.map_eq_none_iff.2 (Option.map_eq_none_iff.1 hg)

theorem grant_some (h : s.Restates t) {w : WindowId} {n : NodeId} {v : Live} {g : GrantRecord}
    (hg : s.grant w n = some (v, g)) : ∃ b, t.grant w n = some (b, g) := by
  rcases h.windows w with hw | ⟨u, hu, hw⟩
  · exact ⟨v, (grant_of_window hw n).trans hg⟩
  · obtain ⟨hv, hgn⟩ := grant_eq_some_iff.1 hg
    obtain rfl := Option.some.inj (hu.symm.trans hv)
    exact ⟨_, grant_eq_some_iff.2 ⟨congrArg WindowRecord.life hw, hgn⟩⟩

end State.Restates

section Engine

variable (s : State) (j : SlotId)

/-- The engine that may resume touches its own phase and the channels alone (R134). -/
theorem resumeWaiting_frame :
    s.resumeWaiting j = { s with engine := (s.resumeWaiting j).engine, channels := (s.resumeWaiting j).channels } := by
  unfold State.resumeWaiting State.readOrWait
  split
  · split
    · split <;> rfl
    all_goals rfl
  · rfl

theorem resumeWaiting_windows : (s.resumeWaiting j).windows = s.windows :=
  (congrArg State.windows (resumeWaiting_frame s j)).trans rfl

theorem resumeWaiting_slots : (s.resumeWaiting j).slots = s.slots :=
  (congrArg State.slots (resumeWaiting_frame s j)).trans rfl

theorem resumeWaiting_freeList : (s.resumeWaiting j).freeList = s.freeList :=
  (congrArg State.freeList (resumeWaiting_frame s j)).trans rfl

/-- The engine resumes only for the COPYING slot that it waits for (R134). -/
theorem resumeWaiting_idle (h : s.engine.phase = .waiting j → (s.slot j).isCopying = false) : s.resumeWaiting j = s := by
  unfold State.resumeWaiting
  split
  · rename_i hp
    have hc := h hp
    split <;> simp_all [Slot.isCopying]
  · rfl

variable {s j}

theorem resumeWaiting_waiting {job : Job} {mark : Bool} (hp : s.engine.phase = .waiting j)
    (hs : s.slot j = .copying job mark) : s.resumeWaiting j = s.readOrWait j job := by
  simp only [State.resumeWaiting, hp, hs, if_true]

theorem writesChunk_eq_true_iff {w : WindowId} {cursor : Nat} :
    s.writesChunk w cursor = true ↔
      ∃ y ∈ s.transactions, y.kind = .write ∧ y.window = w ∧ y.chunk * 4096 = cursor := by
  simp [State.writesChunk, chunkBytes, and_assoc]

theorem touching_eq_zero_iff {e : Extent} : s.touching e = 0 ↔ ∀ y ∈ s.transactions, y.touches e = false := by
  simp [State.touching, List.filter_eq_nil_iff]

/-- A COPYING slot has no drain to look at. -/
theorem lookDrain_copying {job : Job} {mark : Bool} (hs : s.slot j = .copying job mark) : s.lookDrain j = s := by
  simp only [State.lookDrain, hs]

variable (s j)

theorem finish_restates (job : Job) (o : JobOutcome) (e : Extent) (f : Flag) : s.Restates (s.finish j job o e f) := by
  refine ⟨fun w => ?_⟩
  have hw : (s.finish j job o e f).window w =
      if job.window = w then { s.window w with life := (s.window w).life.map (Live.endMigration j) } else s.window w := by
    rw [State.finish, State.raise, setReasons_window, window_updateLive]
    rfl
  rw [hw]
  split
  · cases hv : (s.window w).life with
    | none =>
      left
      rw [Option.map_none, ← hv]
    | some v =>
      rw [Option.map_some]
      unfold Live.endMigration
      split
      · exact .inr ⟨v, rfl, rfl⟩
      · left
        rw [← hv]
  · exact .inl rfl

theorem lookDrain_restates : s.Restates (s.lookDrain j) := by
  unfold State.lookDrain
  split
  · split
    · exact finish_restates ..
    · exact .of_windows rfl
  · split
    · exact finish_restates ..
    · exact .of_windows rfl
  all_goals exact .of_windows rfl

theorem finish_engine (job : Job) (o : JobOutcome) (e : Extent) (f : Flag) :
    (s.finish j job o e f).engine = s.engine ∧ (s.finish j job o e f).channels = s.channels := by
  have h := updateLive_removals ((s.release e).setSlot j (.finished job o)) job.window (Live.endMigration j)
  exact ⟨(engine_of_removals h).trans rfl, (channels_of_removals h).trans rfl⟩

/-- The look at a drain moves neither the engine nor the channels (R142, R145). -/
theorem lookDrain_engine : (s.lookDrain j).engine = s.engine ∧ (s.lookDrain j).channels = s.channels := by
  unfold State.lookDrain
  split
  · split
    · exact finish_engine ..
    · exact ⟨rfl, rfl⟩
  · split
    · exact finish_engine ..
    · exact ⟨rfl, rfl⟩
  all_goals exact ⟨rfl, rfl⟩

variable {s j}

/-- What a slot that reaches FINISHED leaves (R142, R145, R15). -/
theorem finish_leaves {w : WindowId} {v : Live} (hv : (s.window w).life = some v) (hm : v.state = .migrating j)
    (job : Job) (o : JobOutcome) (e : Extent) (f : Flag) :
    (s.finish j job o e f).slot j = .finished job o ∧ (s.finish j job o e f).freeList = release e s.freeList ∧
      (s.finish j job o e f).isPending f = true ∧
      (job.window = w → ∃ b, ((s.finish j job o e f).window w).life = some b ∧ b.state = .active) := by
  have hr := updateLive_removals ((s.release e).setSlot j (.finished job o)) job.window (Live.endMigration j)
  refine ⟨?_, freeList_updateLive .., isPending_raise .., ?_⟩
  · exact (congrArg (Table.get · j) (slots_of_removals hr)).trans (by simp [State.setSlot])
  · rintro rfl
    refine ⟨{ v with state := .active }, ?_, rfl⟩
    rw [State.finish, State.raise, setReasons_window, life_updateLive, if_pos rfl]
    exact (congrArg (Option.map _) hv).trans (congrArg some (endMigration_migrating hm))

variable {w : WindowId} {v : Live}

theorem tellEngine_of_free (hv : (s.window w).life = none) : s.tellEngine w = s := by
  simp only [State.tellEngine, hv]

theorem tellEngine_migrating (hv : (s.window w).life = some v) (hm : v.state = .migrating j) :
    s.tellEngine w = (s.resumeWaiting j).lookDrain j := by
  simp only [State.tellEngine, hv, hm]

theorem tellEngine_restates (s : State) (w : WindowId) : s.Restates (s.tellEngine w) := by
  unfold State.tellEngine
  split
  · exact .of_windows rfl
  · split
    · rename_i j _
      have hw : (s.resumeWaiting j).window = s.window := by
        funext x
        exact congrArg (Table.get · x) (resumeWaiting_windows s j)
      refine ⟨fun x => ?_⟩
      rw [← hw]
      exact (lookDrain_restates ..).windows x
    all_goals exact .of_windows rfl

/-- Unless the engine waits for a COPYING slot of the window, it does not move (R134). -/
theorem tellEngine_engine (h : ∀ v j, (s.window w).life = some v → v.state = .migrating j →
    s.engine.phase = .waiting j → (s.slot j).isCopying = false) :
    (s.tellEngine w).engine = s.engine ∧ (s.tellEngine w).channels = s.channels := by
  unfold State.tellEngine
  split
  · exact ⟨rfl, rfl⟩
  · rename_i v hv
    split
    · rename_i j hm
      rw [resumeWaiting_idle s j (h v j hv hm)]
      exact lookDrain_engine ..
    all_goals exact ⟨rfl, rfl⟩

end Engine

end Sys2Proof.Machine
end

section
/-! SUPPORT. The end of an operation that a transaction issued: the state in which its outcome is noted, the record that
leaves with its last operation, and what the node, the window and its grant are left with (R86, R87, R88, R90). -/

namespace Sys2Proof.Machine

theorem pool_of_jobs {s t : State} (h : t.beyondJobs = s.beyondJobs) : t.pool = s.pool := (congrArg State.pool h :)

/-! ### The outcome that is noted -/

/-- The operation at the head of a channel ends the operation of the record that issued it (R24, R86). -/
theorem exec_operationEnd {s : State} (h : s.TagsAgree) {c : ChannelId} {op : PoolOp} {rest : List PoolOp}
    {x : Transaction} {role : Role} (hop : s.opOf c op rest x role) (dramFault : Bool) :
    exec (.transactionOperationEnd c dramFault) s =
      .next ((s.endOp c op rest dramFault).state.operationEnded x role (s.endOp c op rest dramFault)) := by
  obtain ⟨hreset, hchannel, hissuer, hx⟩ := hop
  have hfind : s.transactions.find? (fun y => y.id == x.id) = some x := by
    have hsome : (s.transactions.find? fun y => y.id == x.id).isSome = true :=
      List.find?_isSome.2 ⟨x, hx, beq_self_eq_true x.id⟩
    obtain ⟨y, hy⟩ := Option.isSome_iff_exists.1 hsome
    rw [hy, eq_of_id h.idsOnce (List.mem_of_find?_eq_some hy) hx (by simpa using List.find?_some hy)]
  simp only [exec, execTransactionOperationEnd, event_free hreset, hchannel, hissuer, hfind]

section Noted

variable {s a : State} {c : ChannelId} {op : PoolOp} {rest : List PoolOp} {dramFault : Bool} {x : Transaction}
  {role : Role} {r : OpEnd} (hr : r = s.endOp c op rest dramFault)
  (ha : s.noted x.id (x.afterOp role r.failed r.bytes) role r a)
include hr ha

/-- Beside the outcome that the record takes, at most the job of its window hears of a failed mirror write (R86,
R140). -/
theorem noted_cases : a = r.state.noteOp x role r.failed r.bytes ∨
    ∃ w, a = (r.state.noteOp x role r.failed r.bytes).mirrorFailed w := by
  subst hr
  rw [noted_iff] at ha
  rw [ha]
  split
  · exact .inr ⟨_, rfl⟩
  · exact .inl rfl

theorem noted_pool : a.pool = r.state.pool := by
  rcases noted_cases hr ha with rfl | ⟨w, rfl⟩
  · rfl
  · exact (pool_of_jobs (mirrorFailed_jobs ..)).trans rfl

theorem noted_appends : s.Appends a := by
  have hb : s.Appends (r.state.noteOp x role r.failed r.bytes) := by
    subst hr
    exact .of_port rfl
  rcases noted_cases hr ha with rfl | ⟨w, rfl⟩
  · exact hb
  · exact hb.trans (mirrorFailed_appends ..)

variable (h : s.TagsAgree) (hx : x ∈ s.transactions)
include h hx

omit ha in
theorem endOp_tagsAgree : r.state.TagsAgree ∧ x ∈ r.state.transactions := by
  subst hr
  exact ⟨h.of_register (endOp_register ..), hx⟩

theorem noted_tagsAgree : a.TagsAgree ∧ x.afterOp role r.failed r.bytes ∈ a.transactions := by
  obtain ⟨hrs, hmem⟩ := endOp_tagsAgree hr h hx
  have hb := hrs.noteOp hmem role r.failed r.bytes
  have hu : x.afterOp role r.failed r.bytes ∈ (r.state.noteOp x role r.failed r.bytes).transactions :=
    List.mem_map.2 ⟨x, hmem, if_pos rfl⟩
  rcases noted_cases hr ha with rfl | ⟨w, rfl⟩
  · exact ⟨hb, hu⟩
  · exact ⟨(mirrorFailed_serves _ w).tagsAgree hb, transactions_mirrorFailed _ _ hu⟩

/-- The tag of the record keeps its entry (R86). -/
theorem noted_tag {tag : Tag} {y : TagEntry} (htag : x.tag = some tag) (hy : s.tag x.node tag = some y) :
    a.tag x.node tag = some y := by
  have hp : y.phase = .executing x.id := by
    obtain ⟨z, hz, hp⟩ := h.recordTag x hx tag htag
    rwa [Option.some.inj (hy.symm.trans hz)]
  obtain ⟨hrs, hmem⟩ := endOp_tagsAgree hr h hx
  have hb : (r.state.noteOp x role r.failed r.bytes).tag x.node tag = some y := by
    subst hr
    exact hy
  rcases noted_cases hr ha with rfl | ⟨w, rfl⟩
  · exact hb
  · exact tag_mirrorFailed_executing (hrs.noteOp hmem role r.failed r.bytes) w hb hp

end Noted

/-! ### The answer -/

section Answer

variable {s : State} {x : Transaction}

@[simp] theorem answerTag_answers : (s.answerTag x).beyondAnswers = s.beyondAnswers := by
  unfold State.answerTag State.completeTag
  split
  · rfl
  · split <;> simp

theorem answerTag_appends : s.Appends (s.answerTag x) := by
  unfold State.answerTag State.completeTag
  split
  · exact .refl s
  · split
    · exact faultTag_appends ..
    · exact (send_appends ..).trans (.of_port rfl)

theorem answerTag_orphan (h : x.tag = none) : s.answerTag x = s := by
  simp only [State.answerTag, h]

variable {tag : Tag} (h : x.tag = some tag)
include h

/-- The tag of the ended record is answered with one message (R87). -/
theorem port_answerTag {y : TagEntry} (hy : s.tag x.node tag = some y) :
    (s.answerTag x).port =
      (s.send x.node (.completion tag (if x.failed then .fault .poolError else .ok (x.readData.getD [])))).port := by
  simp only [State.answerTag, h, State.completeTag]
  split
  · simp only [State.faultTag, hy]
    funext m
    rw [State.sendFault, port_captureFault, port_send, port_send]
    rfl
  · rfl

theorem captures_answerTag_ok (hf : x.failed = false) : (s.answerTag x).captures = s.captures := by
  simp only [State.answerTag, h, State.completeTag, hf, Bool.false_eq_true, if_false]
  exact (setTag_captures ..).trans (captures_of_register (send_register ..))

/-- A failed transaction leaves its fault in a clear capture record (R87, R93). -/
theorem capture_answerTag_failed {y : TagEntry} (hy : s.tag x.node tag = some y) (hf : x.failed = true)
    (hc : s.capture x.node = none) :
    (s.answerTag x).capture x.node = some ⟨tag, y.kind, y.addr, .poolError⟩ ∧
      (s.answerTag x).isPending (.faultCaptured x.node) = true := by
  have hnone : ((s.setTag x.node tag none).send x.node (.completion tag (.fault .poolError))).capture x.node = none :=
    (congrFun (capture_of_register (send_register ..)) x.node).trans hc
  simp only [State.answerTag, h, State.completeTag, hf, if_true, State.faultTag, hy, State.sendFault]
  constructor
  · rw [capture_captureFault, if_pos ⟨rfl, rfl, hnone⟩]
  · rw [State.captureFault, if_pos (by rw [hnone]; rfl)]
    exact isPending_raise ..

end Answer

/-! ### The record that leaves -/

/-- A window and its grant for a node with one transaction fewer executing (R88). -/
def Live.lowered (v : Live) (n : NodeId) : Live :=
  Book.executing.onWindow (· - 1) (v.updateGrant n (Book.executing.onGrant (· - 1)))

/-- The record has left with its tag, and the directory and the grant have been told (R87, R88). -/
def State.yield (s : State) (x : Transaction) : State :=
  ((s.closeRecord x).tellDirectory x.window).removeIfDrained x.window x.node

theorem endTransaction_eq_yield (s : State) (x : Transaction) :
    s.endTransaction x = ((s.yield x).endFenceDrain x.node).tellEngine x.window := rfl

section Yield

variable {s : State} {x : Transaction}

theorem yield_removals : (s.yield x).beyondRemovals = ((s.answerTag x).dropRecord x).beyondRemovals := by
  rw [State.yield, removeIfDrained_removals, tellDirectory_removals, State.closeRecord, State.lowerExecuting,
    updateLive_removals]

theorem transactions_yield : (s.yield x).transactions = s.transactions.filter fun y => y.id != x.id := by
  rw [transactions_of_removals yield_removals]
  exact congrArg (List.filter fun y : Transaction => y.id != x.id) (answerTag_frame s x).2.2.1

theorem slots_yield : (s.yield x).slots = s.slots :=
  (slots_of_removals yield_removals).trans (congrArg State.slots (answerTag_answers (s := s) (x := x)) :)

theorem engine_yield : (s.yield x).engine = s.engine :=
  (engine_of_removals yield_removals).trans (congrArg State.engine (answerTag_answers (s := s) (x := x)) :)

theorem channels_yield : (s.yield x).channels = s.channels :=
  (channels_of_removals yield_removals).trans (congrArg State.channels (answerTag_answers (s := s) (x := x)) :)

theorem port_yield : (s.yield x).port = (s.answerTag x).port := (port_of_removals yield_removals).trans rfl

theorem keepsFlags_yield : (s.answerTag x).KeepsFlags (s.yield x) :=
  have hclosed : (s.answerTag x).KeepsFlags (s.closeRecord x) :=
    .trans (.of_attention (t := (s.answerTag x).dropRecord x) rfl) (updateLive_keepsFlags ..)
  hclosed.trans ((tellDirectory_keepsFlags ..).trans (removeIfDrained_keepsFlags ..))

/-- The node's executing count falls with the record (R70). -/
theorem nodeExecuting_yield (h : s.TagsAgree) (hx : x ∈ s.transactions) :
    (s.yield x).nodeExecuting x.node + 1 = s.nodeExecuting x.node := by
  rw [State.nodeExecuting, State.nodeExecuting, transactions_yield,
    ((perm_filter_id h.idsOnce hx).filter fun y => y.node == x.node).length_eq]
  simp

theorem freeList_told :
    ((s.closeRecord x).tellDirectory x.window).freeList = s.freeList :=
  (freeList_tellDirectory ..).trans
    ((freeList_updateLive ..).trans (congrArg State.freeList (answerTag_answers (s := s) (x := x)) :))

variable {v : Live} (hv : (s.window x.window).life = some v)
include hv

theorem window_closeRecord :
    (s.closeRecord x).window x.window = { s.window x.window with life := some (v.lowered x.node) } := by
  have hanswer : ((s.answerTag x).dropRecord x).window x.window = s.window x.window :=
    congrArg (Table.get · x.window) (windows_answerTag s x)
  rw [State.closeRecord, lowerExecuting_eq, State.adjust, window_updateLive, if_pos rfl, hanswer, hv]
  rfl

theorem window_told :
    ((s.closeRecord x).tellDirectory x.window).window x.window =
      { s.window x.window with life := some (v.lowered x.node).hush } := by
  have hlow := window_closeRecord hv
  rw [window_tellDirectory (congrArg WindowRecord.life hlow), hlow]

/-- A window that is not RETIRING stays in use, and one transaction fewer executes in it (R88). -/
theorem yield_stays (hr : v.state ≠ .retiring) :
    (s.yield x).freeList = s.freeList ∧
      ∃ b, ((s.yield x).window x.window).life = some b ∧ b.state = v.state ∧ b.executing = v.executing - 1 := by
  have hlife := congrArg WindowRecord.life (window_told hv)
  have hstate : (v.lowered x.node).hush.state = v.state := hush_state _
  have hexec : (v.lowered x.node).hush.executing = v.executing - 1 := hush_executing _
  obtain ⟨hfree, b, hb, hbs, hbx⟩ := removeIfDrained_stays (n := x.node) hlife (by rwa [hstate])
  exact ⟨hfree.trans freeList_told, b, hb, hbs.trans hstate, hbx.trans hexec⟩

/-- QUIET is raised when the window's last transaction ends (R12). -/
theorem isPending_yield_quiet (hq : v.quietPending = true) (hx : v.executing = 1) :
    (s.yield x).isPending (.quiet x.window) = true := by
  refine (removeIfDrained_keepsFlags ..).pending _ (isPending_tellDirectory (v := v.lowered x.node) ?_ ?_ ?_)
  · rw [window_closeRecord hv]
  · change v.executing - 1 = 0
    rw [hx]
  · exact hq

end Yield

/-! ### The grant under which it executed -/

section Grant

variable {s : State} {x : Transaction} {v : Live} {g : GrantRecord} (hg : s.grant x.window x.node = some (v, g))
include hg

theorem grant_told :
    ((s.closeRecord x).tellDirectory x.window).grant x.window x.node =
      some ((v.lowered x.node).hush, { g with executing := g.executing - 1 }) := by
  obtain ⟨hv, hgn⟩ := grant_eq_some_iff.1 hg
  refine grant_eq_some_iff.2 ⟨by rw [window_told hv], ?_⟩
  rw [grant_hush, Live.lowered, grant_adjusted, if_pos rfl, hgn]
  rfl

/-- A grant that is not DRAINING, or that more executes under, stays (R122). -/
theorem yield_kept (h : g.state ≠ .draining ∨ 1 < g.executing) :
    s.yield x = (s.closeRecord x).tellDirectory x.window := by
  refine removeIfDrained_kept fun v' g' hg' hd hx => ?_
  obtain ⟨-, rfl⟩ := Prod.mk.inj (Option.some.inj ((grant_told hg).symm.trans hg'))
  rcases h with h | h
  · exact h hd
  · have : g.executing - 1 = 0 := hx
    omega

/-- A DRAINING grant is removed with the last transaction under it (R122). -/
theorem yield_removed (hd : g.state = .draining) (hx : g.executing = 1) :
    s.yield x =
      (((s.closeRecord x).tellDirectory x.window).strike x.window x.node).retireIfEmpty x.window :=
  removeIfDrained_drained (grant_told hg) hd (by change g.executing - 1 = 0; rw [hx])

omit hg in
theorem nodes_told (p : NodeId → Prop) :
    (∃ k ∈ (v.lowered x.node).hush.grants, p k.node) ↔ ∃ k ∈ v.grants, p k.node := by
  have hnode : ∀ k : GrantRecord, (if k.node = x.node then Book.executing.onGrant (· - 1) k else k).node = k.node := by
    intro k
    split <;> rfl
  rw [hush_grants, Live.lowered, onWindow_grants, Live.updateGrant]
  simp [hnode]

end Grant

end Sys2Proof.Machine
end

section
/-! SUPPORT. What the end of an operation hands on: to the node that sent the request, to the window and its grant, to
the fence drain and to the engine (R86 to R88, R90). -/

namespace Sys2Proof.Machine

/-! ### The fence drain -/

section Fence

variable (s : State) (n : NodeId)

theorem endFenceDrain_windows : (s.endFenceDrain n).windows = s.windows := by
  unfold State.endFenceDrain
  split <;> rfl

theorem port_endFenceDrain_of_ne {m : NodeId} (hm : m ≠ n) : (s.endFenceDrain n).port m = s.port m := by
  unfold State.endFenceDrain
  split
  · rw [State.raise, setReasons_port, State.setLink, port_setPort, if_neg (Ne.symm hm)]
  · rfl

theorem outbound_endFenceDrain (m : NodeId) : ((s.endFenceDrain n).port m).outbound = (s.port m).outbound := by
  by_cases hm : m = n
  · subst hm
    rw [(endFenceDrain_frame s m).1]
  · rw [port_endFenceDrain_of_ne s n hm]

end Fence

/-! ### The node -/

section Node

variable {s : State} {x : Transaction}

theorem port_endTransaction (m : NodeId) :
    (s.endTransaction x).port m = ((s.yield x).endFenceDrain x.node).port m :=
  congrFun (port_of_engine (tellEngine_beyondEngine ..)) m

theorem outbound_endTransaction (m : NodeId) :
    ((s.endTransaction x).port m).outbound = ((s.answerTag x).port m).outbound := by
  rw [port_endTransaction, outbound_endFenceDrain, port_yield]

theorem port_endTransaction_of_ne {m : NodeId} (hm : m ≠ x.node) :
    (s.endTransaction x).port m = (s.answerTag x).port m := by
  rw [port_endTransaction, port_endFenceDrain_of_ne _ _ hm, port_yield]

theorem endTransaction_register : (s.endTransaction x).register = ((s.answerTag x).dropRecord x).register := by
  rw [endTransaction_eq_yield, tellEngine_register, endFenceDrain_register, State.yield, removeIfDrained_register,
    tellDirectory_register, State.closeRecord, State.lowerExecuting, updateLive_register]

theorem captures_endTransaction : (s.endTransaction x).captures = (s.answerTag x).captures :=
  (captures_of_register endTransaction_register).trans rfl

theorem tag_endTransaction (m : NodeId) (u : Tag) : (s.endTransaction x).tag m u = (s.answerTag x).tag m u :=
  (congrFun₂ (tag_of_register endTransaction_register) m u).trans rfl

theorem transactions_endTransaction :
    (s.endTransaction x).transactions = s.transactions.filter fun y => y.id != x.id :=
  (transactions_of_register endTransaction_register).trans
    (congrArg (List.filter fun y : Transaction => y.id != x.id) (answerTag_frame s x).2.2.1)

theorem pool_endTransaction : (s.endTransaction x).pool = s.pool := pool_of_jobs (endTransaction_jobs s x)

theorem keepsFlags_told : (s.yield x).KeepsFlags (s.endTransaction x) :=
  (endFenceDrain_keepsFlags ..).trans (tellEngine_keepsFlags ..)

/-- An orphan leaves without an answer (R90). -/
theorem endTransaction_orphan (h : x.tag = none) :
    (∀ n, ((s.endTransaction x).port n).outbound = (s.port n).outbound) ∧
      (s.endTransaction x).captures = s.captures := by
  have hanswer := answerTag_orphan (s := s) h
  exact ⟨fun n => by rw [outbound_endTransaction, hanswer], by rw [captures_endTransaction, hanswer]⟩

variable {tag : Tag} (h : x.tag = some tag)
include h

theorem tag_endTransaction_free : (s.endTransaction x).tag x.node tag = none := by
  rw [tag_endTransaction, tag_answerTag, if_pos ⟨rfl, h⟩]

variable {y : TagEntry} (hy : s.tag x.node tag = some y)
include hy

/-- A transaction that ends sends its node one COMPLETION (R87). -/
theorem port_endTransaction_answered (hlink : s.link x.node ≠ .down) :
    ((s.endTransaction x).port x.node).outbound = (s.port x.node).outbound ++
        [.completion tag (if x.failed then .fault .poolError else .ok (x.readData.getD []))] ∧
      ∀ n, n ≠ x.node → (s.endTransaction x).port n = s.port n := by
  constructor
  · rw [outbound_endTransaction, port_answerTag h hy, port_send, if_pos ⟨rfl, hlink⟩]
  · intro n hn
    rw [port_endTransaction_of_ne hn, port_answerTag h hy, port_send, if_neg fun hc => hn hc.1.symm]

/-- A failed transaction leaves its fault in a clear capture record (R87, R93). -/
theorem capture_endTransaction_failed (hf : x.failed = true) (hc : s.capture x.node = none) :
    (s.endTransaction x).capture x.node = some ⟨tag, y.kind, y.addr, .poolError⟩ ∧
      (s.endTransaction x).isPending (.faultCaptured x.node) = true := by
  obtain ⟨hcapture, hflag⟩ := capture_answerTag_failed h hy hf hc
  refine ⟨?_, (keepsFlags_yield.trans keepsFlags_told).pending _ hflag⟩
  rw [← hcapture, State.capture, captures_endTransaction]
  rfl

end Node

/-! ### The window -/

section Window

variable {s : State} {x : Transaction} {v : Live} (hv : (s.window x.window).life = some v)

theorem endTransaction_restates : (s.yield x).Restates (s.endTransaction x) := by
  refine ⟨fun w => ?_⟩
  have hw : ((s.yield x).endFenceDrain x.node).window w = (s.yield x).window w :=
    congrArg (Table.get · w) (endFenceDrain_windows ..)
  rw [← hw]
  exact (tellEngine_restates ..).windows w

include hv

theorem windowExecuting_endTransaction (hr : v.state ≠ .retiring) :
    (s.endTransaction x).windowExecuting x.window = v.executing - 1 := by
  obtain ⟨-, b, hb, -, hbx⟩ := yield_stays hv hr
  rw [endTransaction_restates.windowExecuting, State.windowExecuting, hb]
  exact hbx

end Window

/-- Whether the status of a transaction is a failure (R87). -/
theorem failed_iff (x : Transaction) :
    x.failed = true ↔ ∃ o ∈ x.ops, o.role = x.authoritative ∧ o.outcome = .uncorrectable := by
  simp [Transaction.failed]

/-- An outcome changes nothing that says where a record belongs (R86). -/
theorem afterOp_frame (x : Transaction) (role : Role) (failed : Bool) (bytes : List Byte) :
    (x.afterOp role failed bytes).id = x.id ∧ (x.afterOp role failed bytes).node = x.node ∧
      (x.afterOp role failed bytes).tag = x.tag ∧ (x.afterOp role failed bytes).window = x.window ∧
      (x.afterOp role failed bytes).authoritative = x.authoritative := ⟨rfl, rfl, rfl, rfl, rfl⟩

/-- Once its outcome is noted, the end of an operation ends the transaction when none of its operations is pending
(R86). -/
theorem exec_operationEnd_noted {s a : State} {c : ChannelId} {dramFault : Bool} {op : PoolOp} {rest : List PoolOp}
    {x u : Transaction} {role : Role} {r : OpEnd} (h : s.TagsAgree) (hop : s.opOf c op rest x role)
    (hr : r = s.endOp c op rest dramFault) (hu : u = x.afterOp role r.failed r.bytes)
    (ha : s.noted x.id u role r a) :
    ((∃ o ∈ u.ops, o.outcome = .pending) → exec (.transactionOperationEnd c dramFault) s = .next a) ∧
      ((∀ o ∈ u.ops, o.outcome ≠ .pending) →
        exec (.transactionOperationEnd c dramFault) s = .next (a.endTransaction u)) := by
  subst hu
  rw [exec_operationEnd h hop, ← hr, operationEnded_of_noted (by rw [hr]; rfl) ha]
  constructor
  · rintro ⟨o, ho, hp⟩
    rw [if_pos (List.any_eq_true.2 ⟨o, ho, by rw [hp]; rfl⟩)]
  · intro hdone
    rw [if_neg (by simpa using hdone)]

/-- Settles O34: the outcome is noted, and with the last outcome the record leaves and its node is answered. -/
theorem transactionOperationEnds : Obligations.TransactionOperationEnds := by
  intro s a c dramFault op rest x u role r h hop hr hu ha
  obtain ⟨hpending, hdone⟩ := exec_operationEnd_noted h hop hr hu ha
  obtain ⟨hid, hnode, htag, hwindow, hauth⟩ := afterOp_frame x role r.failed r.bytes
  rw [← hu] at hid hnode htag hwindow hauth
  have happends := noted_appends hr (hu ▸ ha)
  have hkept : ∀ tag, u.tag = some tag → ∀ y, s.tag u.node tag = some y → a.tag u.node tag = some y := by
    rw [htag, hnode]
    exact fun tag ht y hy => noted_tag hr (hu ▸ ha) h hop.2.2.2 ht hy
  have hentry : ∀ tag, u.tag = some tag → ∃ y, s.tag u.node tag = some y := by
    rw [htag, hnode]
    exact fun tag ht => (h.recordTag x hop.2.2.2 tag ht).imp fun y hy => hy.1
  have hpool := noted_pool hr (hu ▸ ha)
  obtain ⟨more, hmore⟩ := happends.tails x.node
  refine ⟨hpool, ⟨more, by rw [hmore]⟩, hpending, fun hlast => ⟨_, hdone hlast, ?_⟩⟩
  rw [← hid, ← hnode, ← htag, ← hwindow, ← hauth]
  refine ⟨pool_endTransaction.trans hpool, transactions_endTransaction, endTransaction_orphan, failed_iff u,
    fun tag ht => ?_, fun v hv => ⟨windowExecuting_endTransaction hv, fun hq hx => ?_⟩⟩
  · obtain ⟨y, hy⟩ := hentry tag ht
    have hya := hkept tag ht y hy
    refine ⟨tag_endTransaction_free ht, fun hlink => ?_⟩
    rw [← happends.link] at hlink
    obtain ⟨hsent, hothers⟩ := port_endTransaction_answered ht hya hlink
    refine ⟨hsent, hothers, fun hf => captures_endTransaction.trans (captures_answerTag_ok ht hf), ?_⟩
    intro hf hc z hz
    obtain rfl := Option.some.inj (hy.symm.trans hz)
    exact capture_endTransaction_failed ht hya hf hc
  · exact keepsFlags_told.pending _ (isPending_yield_quiet hv hq hx)

end Sys2Proof.Machine
end

section
/-! SUPPORT. What the grant, the fence drain and the engine are left with when a transaction has ended (R70, R88, R122,
R126, R134, R142, R145). -/

namespace Sys2Proof.Machine

section OfAnswers

variable {s t : State} (h : t.beyondAnswers = s.beyondAnswers)
include h

theorem slots_of_answers : t.slots = s.slots := (congrArg State.slots h :)
theorem engine_of_answers : t.engine = s.engine := (congrArg State.engine h :)
theorem freeList_of_answers : t.freeList = s.freeList := (congrArg State.freeList h :)

end OfAnswers

/-! ### The grant -/

/-- The state in which the engine hears of a transaction's end: directory, grant and fence drain have (R88). -/
def State.settled (s : State) (x : Transaction) : State := (s.yield x).endFenceDrain x.node

theorem endTransaction_eq_settled (s : State) (x : Transaction) :
    s.endTransaction x = (s.settled x).tellEngine x.window := rfl

section Settled

variable {s : State} {x : Transaction}

theorem window_settled : (s.settled x).window = (s.yield x).window :=
  funext fun w => congrArg (Table.get · w) (endFenceDrain_windows ..)

theorem freeList_settled : (s.settled x).freeList = (s.yield x).freeList :=
  freeList_of_answers (endFenceDrain_answers ..)

theorem slots_settled : (s.settled x).slots = s.slots :=
  (slots_of_answers (endFenceDrain_answers ..)).trans slots_yield

theorem slot_settled (j : SlotId) : (s.settled x).slot j = s.slot j := congrArg (Table.get · j) slots_settled

theorem engine_settled : (s.settled x).engine = s.engine :=
  (engine_of_answers (endFenceDrain_answers ..)).trans engine_yield

theorem channels_settled : (s.settled x).channels = s.channels :=
  (channels_of_answers (endFenceDrain_answers ..)).trans channels_yield

/-- The records that remain are those of the other names (R88). -/
theorem mem_transactions_settled {y : Transaction} :
    y ∈ (s.settled x).transactions ↔ y ∈ s.transactions ∧ y.id ≠ x.id := by
  rw [State.settled, transactions_of_answers (endFenceDrain_answers ..), transactions_yield]
  simp

end Settled

/-- A window that loses a drained grant keeps its state while it is in use. -/
theorem state_removeIfDrained {s : State} {w : WindowId} {n : NodeId} {v b : Live} (hv : (s.window w).life = some v)
    (hb : ((s.removeIfDrained w n).window w).life = some b) : b.state = v.state := by
  by_cases hd : ∃ v g, s.grant w n = some (v, g) ∧ g.state = .draining ∧ g.executing = 0
  · obtain ⟨v', g, hg, hst, hx⟩ := hd
    rw [removeIfDrained_drained hg hst hx] at hb
    by_cases hk : v.state ≠ .retiring ∨ ∃ k ∈ v.grants, k.node ≠ n
    · rw [retireIfEmpty_strike_kept hv hk, window_strike hv] at hb
      rw [← Option.some.inj hb]
    · push Not at hk
      rw [retireIfEmpty_strike_freed hv hk.1 hk.2, window_completeRetirement, if_pos rfl] at hb
      cases hb
  · rw [removeIfDrained_kept fun v g hg hst hx => hd ⟨v, g, hg, hst, hx⟩] at hb
    rw [Option.some.inj (hv.symm.trans hb)]

theorem state_settled {s : State} {x : Transaction} {v b : Live} (hv : (s.window x.window).life = some v)
    (hb : ((s.settled x).window x.window).life = some b) : b.state = v.state := by
  rw [window_settled] at hb
  exact (state_removeIfDrained (congrArg WindowRecord.life (window_told hv)) hb).trans (hush_state _)

section Grant

variable {s : State} {x : Transaction} {v : Live} {g : GrantRecord} (hg : s.grant x.window x.node = some (v, g))
include hg

/-- A grant that stays counts one transaction fewer (R88). -/
theorem grant_endTransaction_kept (h : g.state ≠ .draining ∨ 1 < g.executing) :
    ∃ b k, (s.endTransaction x).grant x.window x.node = some (b, k) ∧ k = { g with executing := g.executing - 1 } := by
  have hyield : (s.yield x).grant x.window x.node =
      some ((v.lowered x.node).hush, { g with executing := g.executing - 1 }) := by
    rw [yield_kept hg h]
    exact grant_told hg
  obtain ⟨b, hb⟩ := endTransaction_restates.grant_some hyield
  exact ⟨b, _, hb, rfl⟩

variable (hd : g.state = .draining) (hx : g.executing = 1)
include hd hx

/-- A drained grant is removed, and GRANT_REMOVED is raised (R122). -/
theorem isPending_endTransaction_removed : (s.endTransaction x).isPending (.grantRemoved x.window) = true := by
  refine keepsFlags_told.pending _ ?_
  rw [yield_removed hg hd hx]
  exact (retireIfEmpty_keepsFlags ..).pending _ (isPending_raise ..)

/-- A window that is not RETIRING, or that another node has a grant of, loses the drained grant and stays in use
(R122). -/
theorem yield_struck (hk : v.state ≠ .retiring ∨ ∃ k ∈ v.grants, k.node ≠ x.node) :
    s.yield x = ((s.closeRecord x).tellDirectory x.window).strike x.window x.node := by
  have hlife := congrArg WindowRecord.life (window_told (grant_eq_some_iff.1 hg).1)
  rw [yield_removed hg hd hx, retireIfEmpty_strike_kept hlife]
  rw [nodes_told fun m => m ≠ x.node, hush_state]
  exact hk

theorem life_endTransaction_struck (hk : v.state ≠ .retiring ∨ ∃ k ∈ v.grants, k.node ≠ x.node) :
    ((s.endTransaction x).window x.window).life.isSome = true := by
  have hlife := congrArg WindowRecord.life (window_told (grant_eq_some_iff.1 hg).1)
  refine endTransaction_restates.life ?_
  rw [yield_struck hg hd hx hk, window_strike hlife]
  rfl

/-- A RETIRING window that is left without grants is freed, and the engine hears nothing of it (R122, R126). -/
theorem endTransaction_freed (hr : v.state = .retiring) (ha : ∀ k ∈ v.grants, k.node = x.node) :
    (s.yield x).window x.window = { generation := (s.window x.window).generation + 1, life := none } ∧
      (s.endTransaction x).window x.window = { generation := (s.window x.window).generation + 1, life := none } ∧
      (s.endTransaction x).freeList = release v.home s.freeList ∧
      (s.endTransaction x).isPending (.retireDone x.window) = true := by
  have htold := window_told (x := x) (grant_eq_some_iff.1 hg).1
  have hlife := congrArg WindowRecord.life htold
  have hnodes : ∀ k ∈ (v.lowered x.node).hush.grants, k.node = x.node := by
    by_contra hc
    push Not at hc
    obtain ⟨k, hk, hne⟩ := (nodes_told fun m => m ≠ x.node).1 hc
    exact hne (ha k hk)
  have hyield : s.yield x = _ := (yield_removed hg hd hx).trans
    (retireIfEmpty_strike_freed hlife ((hush_state _).trans hr) hnodes)
  have hwindow : (s.yield x).window x.window =
      { generation := (s.window x.window).generation + 1, life := none } := by
    rw [hyield, window_completeRetirement, if_pos rfl, window_strike hlife, htold]
  have hend : s.endTransaction x = s.settled x :=
    tellEngine_of_free (congrArg WindowRecord.life ((congrFun window_settled x.window).trans hwindow))
  refine ⟨hwindow, ?_, ?_, keepsFlags_told.pending _ ?_⟩
  · rw [hend, window_settled, hwindow]
  · have hhome : (v.lowered x.node).hush.home = v.home := hush_home _
    rw [hend, freeList_settled, hyield, ← freeList_told (s := s) (x := x), ← hhome]
    exact congrArg (release _) freeList_strike
  · rw [hyield]
    exact isPending_retireDone ..

theorem grant_endTransaction_removed : (s.endTransaction x).grant x.window x.node = none := by
  by_cases hk : v.state ≠ .retiring ∨ ∃ k ∈ v.grants, k.node ≠ x.node
  · have hlife := congrArg WindowRecord.life (window_told (grant_eq_some_iff.1 hg).1)
    refine endTransaction_restates.grant_none ?_
    rw [yield_struck hg hd hx hk]
    exact grant_strike hlife
  · push Not at hk
    exact grant_of_free (congrArg WindowRecord.life (endTransaction_freed hg hd hx hk.1 hk.2).2.1) _

end Grant

/-! ### The fence drain -/

section Fence

variable {s : State} {x : Transaction} (h : s.TagsAgree) (hx : x ∈ s.transactions)

theorem link_endTransaction : (s.endTransaction x).link x.node = (s.settled x).link x.node :=
  congrArg Port.link (port_endTransaction x.node)

theorem link_yield : (s.yield x).link x.node = s.link x.node :=
  (congrArg Port.link (congrFun port_yield x.node)).trans (answerTag_appends.link x.node)

include h hx

/-- The fence drain ends with the last transaction of its node (R70). -/
theorem endTransaction_fenced (hl : s.link x.node = .fencing) (h1 : s.nodeExecuting x.node = 1) :
    (s.endTransaction x).link x.node = .fenced ∧ (s.endTransaction x).isPending (.nodeFenced x.node) = true := by
  have hcount := nodeExecuting_yield h hx
  have hended : s.settled x = ((s.yield x).setLink x.node .fenced).raise (.nodeFenced x.node) :=
    endFenceDrain_ended (link_yield.trans hl) (by omega)
  constructor
  · rw [link_endTransaction, hended]
    simp [State.link, State.setLink, State.raise]
  · refine (tellEngine_keepsFlags ..).pending _ (?_ : (s.settled x).isPending _ = true)
    rw [hended]
    exact isPending_raise ..

/-- A link that is not FENCING, or whose node executes more, stays as it was (R70). -/
theorem link_endTransaction_kept (hc : s.link x.node ≠ .fencing ∨ s.nodeExecuting x.node ≠ 1) :
    (s.endTransaction x).link x.node = s.link x.node := by
  have hcount := nodeExecuting_yield h hx
  have hgoing : s.settled x = s.yield x := by
    refine if_neg fun ⟨hl, h0⟩ => ?_
    rcases hc with hc | hc
    · exact hc (link_yield.symm.trans hl)
    · omega
  rw [link_endTransaction, hgoing, link_yield]

end Fence

/-! ### The engine -/

section Engine

variable {s : State} {x : Transaction} {v : Live} (hv : (s.window x.window).life = some v)
include hv

/-- Unless the engine waits for a COPYING slot of the window, it does not move (R134). -/
theorem engine_endTransaction_kept
    (hw : ∀ j, v.state = .migrating j → s.engine.phase = .waiting j → (s.slot j).isCopying = false) :
    (s.endTransaction x).engine = s.engine ∧ (s.endTransaction x).channels = s.channels := by
  rw [endTransaction_eq_settled, ← engine_settled (s := s) (x := x), ← channels_settled (s := s) (x := x)]
  refine tellEngine_engine fun b j hb hm hp => ?_
  rw [slot_settled]
  rw [engine_settled] at hp
  exact hw j ((state_settled hv hb).symm.trans hm) hp

variable {j : SlotId} (hm : v.state = .migrating j)
include hm

/-- The engine is told of a window that is MIGRATING still (R88). -/
theorem endTransaction_migrating :
    s.endTransaction x = ((s.settled x).resumeWaiting j).lookDrain j ∧ (s.settled x).freeList = s.freeList ∧
      ∃ b, ((s.settled x).window x.window).life = some b ∧ b.state = .migrating j := by
  obtain ⟨hfree, b, hb, hbs, -⟩ := yield_stays hv (by rw [hm]; exact LiveState.noConfusion)
  have hlife : ((s.settled x).window x.window).life = some b := by rw [window_settled, hb]
  exact ⟨tellEngine_migrating hlife (hbs.trans hm), freeList_settled.trans hfree, b, hlife, hbs.trans hm⟩

section Copying

variable {job : Job} {mark : Bool} (hs : s.slot j = .copying job mark)
include hs

/-- The end of a transaction under a COPYING slot is for the engine that may wait alone (R134). -/
theorem endTransaction_copying : s.endTransaction x = (s.settled x).resumeWaiting j := by
  rw [(endTransaction_migrating hv hm).1]
  refine lookDrain_copying (job := job) (mark := mark) ?_
  rw [← hs, ← slot_settled (s := s) (x := x)]
  exact congrArg (Table.get · j) (resumeWaiting_slots ..)

theorem slots_endTransaction_copying :
    (s.endTransaction x).slots = s.slots ∧ (s.endTransaction x).freeList = s.freeList := by
  rw [endTransaction_copying hv hm hs, resumeWaiting_slots, resumeWaiting_freeList]
  exact ⟨slots_settled, (endTransaction_migrating hv hm).2.1⟩

variable (hp : s.engine.phase = .waiting j)
include hp

/-- The engine that waits looks again for writes of its chunk (R134). -/
theorem endTransaction_waiting : s.endTransaction x = (s.settled x).readOrWait j job := by
  rw [endTransaction_copying hv hm hs]
  exact resumeWaiting_waiting (by rw [engine_settled, hp]) (by rw [slot_settled, hs])

theorem endTransaction_waits (hy : ∃ y ∈ s.transactions,
      y.id ≠ x.id ∧ y.kind = .write ∧ y.window = job.window ∧ y.chunk * 4096 = job.cursor) :
    (s.endTransaction x).engine = s.engine ∧ (s.endTransaction x).channels = s.channels := by
  have hwrites : (s.settled x).writesChunk job.window job.cursor = true := by
    obtain ⟨y, hy, hne, hwrite⟩ := hy
    exact writesChunk_eq_true_iff.2 ⟨y, mem_transactions_settled.2 ⟨hy, hne⟩, hwrite⟩
  rw [endTransaction_waiting hv hm hs hp, State.readOrWait, if_pos hwrites]
  rw [setPhase_channels, State.setPhase, engine_settled, ← hp]
  exact ⟨rfl, channels_settled⟩

theorem endTransaction_reads (hy : ∀ y ∈ s.transactions,
      y.id ≠ x.id → y.kind = .write → y.window = job.window → y.chunk * 4096 ≠ job.cursor) :
    (s.endTransaction x).engine = { phase := .reading j, last := s.engine.last } ∧
      (s.endTransaction x).channels = (s.issue (copyRead j job)).channels := by
  have hwrites : ¬(s.settled x).writesChunk job.window job.cursor = true := by
    rw [writesChunk_eq_true_iff]
    rintro ⟨y, hmem, hkind, hwindow, hchunk⟩
    obtain ⟨hmem, hne⟩ := mem_transactions_settled.1 hmem
    exact hy y hmem hne hkind hwindow hchunk
  rw [endTransaction_waiting hv hm hs hp, State.readOrWait, if_neg hwrites, State.issueCopyRead]
  constructor
  · rw [← engine_settled (s := s) (x := x)]
    rfl
  · have hchannel : (s.settled x).channel = s.channel := funext fun c => congrArg (Table.get · c) channels_settled
    simp only [State.setPhase, State.issue, State.setChannel, hchannel, channels_settled]

end Copying

/-- The slot, neither COPYING nor FINISHED, whose drain of an extent would end with an outcome and a flag (R142,
R145). -/
def State.drains (s : State) (j : SlotId) (job : Job) (spare : Extent) (o : JobOutcome) (f : Flag) : Prop :=
  s.slot j = .drainingOld job ∧ spare = job.source ∧ o = .done ∧ f = .jobDone j ∨
    ∃ reason, s.slot j = .aborting job reason ∧ s.engine.phase.copiesFor j = false ∧ spare = job.target ∧
      o = .aborted reason ∧ f = .jobAborted j

section Draining

variable {job : Job} {spare : Extent} {o : JobOutcome} {f : Flag}

omit hv hm in
theorem State.drains.not_copying (h : s.drains j job spare o f) : (s.slot j).isCopying = false := by
  rcases h with ⟨h, -⟩ | ⟨_, h, -⟩ <;> rw [h] <;> rfl

omit hv hm in
theorem State.drains.touched (h : s.drains j job spare o f) (ht : s.touching spare ≠ 0) : s.lookDrain j = s := by
  rcases h with ⟨h, rfl, -⟩ | ⟨_, h, -, rfl, -⟩
  · exact lookDrain_drainingOld_touched h ht
  · exact lookDrain_aborting_touched h (.inl ht)

omit hv hm in
theorem State.drains.free (h : s.drains j job spare o f) (ht : s.touching spare = 0) :
    s.lookDrain j = s.finish j job o spare f := by
  rcases h with ⟨h, rfl, rfl, rfl⟩ | ⟨_, h, hp, rfl, rfl, rfl⟩
  · exact lookDrain_drainingOld_free h ht
  · exact lookDrain_aborting_free h ht hp

variable (h : s.drains j job spare o f)
include h

omit hv hm in
theorem drains_settled : (s.settled x).drains j job spare o f := by
  rw [State.drains, slot_settled, engine_settled]
  exact h

theorem endTransaction_drains : s.endTransaction x = (s.settled x).lookDrain j := by
  rw [(endTransaction_migrating hv hm).1, resumeWaiting_idle]
  exact fun _ => (drains_settled h).not_copying

theorem endTransaction_touched (hy : ∃ y ∈ s.transactions, y.id ≠ x.id ∧ y.touches spare = true) :
    (s.endTransaction x).slots = s.slots ∧ (s.endTransaction x).freeList = s.freeList := by
  have htouch : (s.settled x).touching spare ≠ 0 := by
    rw [Ne, touching_eq_zero_iff]
    obtain ⟨y, hmem, hne, hy⟩ := hy
    exact fun hc => absurd (hc y (mem_transactions_settled.2 ⟨hmem, hne⟩)) (by simp [hy])
  rw [endTransaction_drains hv hm h, (drains_settled h).touched htouch]
  exact ⟨slots_settled, (endTransaction_migrating hv hm).2.1⟩

theorem endTransaction_drained (hy : ∀ y ∈ s.transactions, y.id ≠ x.id → y.touches spare = false) :
    (s.endTransaction x).slot j = .finished job o ∧ (s.endTransaction x).freeList = release spare s.freeList ∧
      (s.endTransaction x).isPending f = true ∧
      (job.window = x.window → ∃ b, ((s.endTransaction x).window x.window).life = some b ∧ b.state = .active) := by
  have htouch : (s.settled x).touching spare = 0 := by
    refine touching_eq_zero_iff.2 fun y hmem => ?_
    obtain ⟨hmem, hne⟩ := mem_transactions_settled.1 hmem
    exact hy y hmem hne
  obtain ⟨-, hfree, b, hb, hbm⟩ := endTransaction_migrating hv hm
  rw [endTransaction_drains hv hm h, (drains_settled h).free htouch, ← hfree]
  exact finish_leaves hb hbm job o spare f

end Draining

end Engine

/-- Settles O35: the record that leaves is handed on to grant, fence drain and engine, in that order. -/
theorem transactionEndHandsOn : Obligations.TransactionEndHandsOn := by
  intro s a c dramFault op rest x u role r v g h hop hr hu hlast ha hg
  have hend := (exec_operationEnd_noted h hop hr hu ha).2 hlast
  obtain ⟨hid, hnode, -, hwindow, -⟩ := afterOp_frame x role r.failed r.bytes
  rw [← hu] at hid hnode hwindow
  obtain ⟨hagree, hmem⟩ := noted_tagsAgree hr (hu ▸ ha) h hop.2.2.2
  rw [← hu] at hmem
  refine ⟨_, hend, ?_⟩
  rw [← hnode, ← hwindow] at hg ⊢
  rw [← hid]
  have hv := (grant_eq_some_iff.1 hg).1
  refine ⟨grant_endTransaction_kept hg, fun hd hx => ⟨grant_endTransaction_removed hg hd hx,
      isPending_endTransaction_removed hg hd hx, fun hret hall => (endTransaction_freed hg hd hx hret hall).2,
      life_endTransaction_struck hg hd hx⟩,
    endTransaction_fenced hagree hmem, link_endTransaction_kept hagree hmem, engine_endTransaction_kept hv,
    fun j hm => ⟨fun job mark hs => ?_, fun job spare outcome flag hdrains =>
      ⟨endTransaction_touched hv hm hdrains, endTransaction_drained hv hm hdrains⟩⟩⟩
  obtain ⟨hslots, hfree⟩ := slots_endTransaction_copying hv hm hs
  exact ⟨hslots, hfree, fun hp => ⟨endTransaction_waits hv hm hs hp, endTransaction_reads hv hm hs hp⟩⟩

end Sys2Proof.Machine
end

section
/-! SUPPORT. The bound on hold queues: the berths of the nodes, what leaves them as they were, and what takes entries
out of queues (R96, R105). -/

namespace Sys2Proof.Machine

/-! ### Berths -/

/-- The berth of a node: its hold queue and its link state, which the bound on hold queues is judged by. -/
def State.berth (s : State) (n : NodeId) : List HoldEntry × LinkState := (s.hold n, s.link n)

section OfBerths

variable {s t : State}

/-- Messages change no berth. -/
theorem berth_of_appends (hh : t.hold = s.hold) (ha : s.Appends t) : t.berth = s.berth :=
  funext fun n => Prod.ext (congrFun hh n) (ha.link n)

theorem berth_of_ports (hh : t.hold = s.hold) (hp : t.port = s.port) : t.berth = s.berth :=
  berth_of_appends hh (.of_port hp)

theorem berth_of_engine (h : t.beyondEngine = s.beyondEngine) : t.berth = s.berth :=
  berth_of_ports (hold_of_register (register_of_engine h)) (port_of_engine h)

theorem berth_of_removals (h : t.beyondRemovals = s.beyondRemovals) : t.berth = s.berth :=
  berth_of_engine (beyondEngine_of_removals h)

end OfBerths

namespace State.HoldsBounded

variable {s t : State} (h : s.HoldsBounded)
include h

theorem of_berth (hb : t.berth = s.berth) : t.HoldsBounded := by
  intro n
  have hn : (t.hold n, t.link n) = (s.hold n, s.link n) := congrFun hb n
  obtain ⟨hh, hl⟩ := Prod.mk.inj hn
  rw [hh, hl]
  exact h n

/-- Queues that become no longer stay within the bound, and messages change no link state. -/
theorem shortened (hlen : ∀ n, (t.hold n).length ≤ (s.hold n).length) (ha : s.Appends t) : t.HoldsBounded := by
  refine fun n => ⟨(hlen n).trans (h n).1, fun hl => ?_⟩
  rw [ha.link] at hl
  have hnil := hlen n
  rw [(h n).2 hl] at hnil
  exact List.eq_nil_of_length_eq_zero (Nat.le_zero.1 hnil)

/-- One node's berth may change as long as it keeps the bound itself. -/
theorem of_one {n : NodeId} (ho : ∀ m, m ≠ n → t.hold m = s.hold m ∧ t.link m = s.link m)
    (hlen : (t.hold n).length ≤ 8) (hl : t.link n ≠ .admitted → t.hold n = []) : t.HoldsBounded := by
  intro m
  by_cases hm : m = n
  · subst hm
    exact ⟨hlen, hl⟩
  · rw [(ho m hm).1, (ho m hm).2]
    exact h m

/-- A node that holds nothing may take any link state, and an ADMITTED node may hold what it holds. -/
theorem setLink {n : NodeId} {l : LinkState} (hl : l ≠ .admitted → s.hold n = []) : (s.setLink n l).HoldsBounded := by
  refine h.of_one (n := n) (fun m hm => ⟨rfl, ?_⟩) (h n).1 fun hc => ?_
  · rw [link_setLink, if_neg (Ne.symm hm)]
  · rw [link_setLink, if_pos rfl] at hc
    exact hl hc

/-- A list of changes that each keep the bound keeps it. -/
theorem foldl {α : Type} {f : State → α → State} (hf : ∀ {s : State} (x : α), s.HoldsBounded → (f s x).HoldsBounded)
    (l : List α) : (l.foldl f s).HoldsBounded := by
  induction l generalizing s with
  | nil => exact h
  | cons x l ih => exact ih (hf x h)

end State.HoldsBounded

/-! ### What leaves every berth as it was -/

section Frames

variable (s : State)

@[simp] theorem raise_berth (f : Flag) : (s.raise f).berth = s.berth := rfl
@[simp] theorem setMap_berth (n : NodeId) (m : List WindowId) : (s.setMap n m).berth = s.berth := rfl
@[simp] theorem makeWindow_berth (w : WindowId) (home : Extent) (free : List Extent) :
    (s.makeWindow w home free).berth = s.berth := rfl
@[simp] theorem endOp_berth (c : ChannelId) (op : PoolOp) (rest : List PoolOp) (dramFault : Bool) :
    (s.endOp c op rest dramFault).state.berth = s.berth := rfl
@[simp] theorem issueCopyWrite_berth (j : SlotId) (job : Job) (data : List Byte) :
    (s.issueCopyWrite j job data).berth = s.berth := rfl

@[simp] theorem updateLive_berth (w : WindowId) (f : Live → Live) : (s.updateLive w f).berth = s.berth :=
  berth_of_removals (updateLive_removals ..)

@[simp] theorem updateGrant_berth (w : WindowId) (n : NodeId) (f : GrantRecord → GrantRecord) :
    (s.updateGrant w n f).berth = s.berth := updateLive_berth ..

@[simp] theorem send_berth (n : NodeId) (m : Message) : (s.send n m).berth = s.berth :=
  berth_of_appends (hold_of_register (send_register ..)) (send_appends ..)

theorem sendFault_berth (n : NodeId) (c : Capture) : (s.sendFault n c).berth = s.berth :=
  berth_of_appends (hold_of_ledger (sendFault_ledger ..))
    ((send_appends ..).trans (.of_port (port_captureFault ..)))

/-- A change of a port that leaves its link state alone changes no berth. -/
theorem setPort_berth {n : NodeId} {p : Port} (hp : p.link = s.link n) : (s.setPort n p).berth = s.berth := by
  refine funext fun m => Prod.ext rfl ?_
  change (s.setPort n p).link m = s.link m
  rw [link_setPort]
  split
  · rename_i hm
    rw [← hm, hp]
  · rfl

@[simp] theorem updateStanding_berth (n : NodeId) : (s.updateStanding n).berth = s.berth := setPort_berth s rfl

@[simp] theorem recordIdentity_berth (n : NodeId) (identity : Word) :
    (s.recordIdentity n identity).berth = s.berth := by
  rw [recordIdentity_eq]
  exact setPort_berth s rfl

@[simp] theorem malformed_berth (n : NodeId) : (s.malformed n).berth = s.berth := by
  unfold State.malformed
  split <;> rfl

@[simp] theorem delist_berth (w : WindowId) (n : NodeId) : (s.delist w n).berth = s.berth :=
  (updateGrant_berth ..).trans (setMap_berth ..)

@[simp] theorem removeIfDrained_berth (w : WindowId) (n : NodeId) : (s.removeIfDrained w n).berth = s.berth :=
  berth_of_removals (removeIfDrained_removals ..)

@[simp] theorem retireIfEmpty_berth (w : WindowId) : (s.retireIfEmpty w).berth = s.berth :=
  berth_of_removals (retireIfEmpty_removals ..)

@[simp] theorem tellDirectory_berth (w : WindowId) : (s.tellDirectory w).berth = s.berth :=
  berth_of_removals (tellDirectory_removals ..)

@[simp] theorem sendNotice_berth (w : WindowId) (v : Live) (n : NodeId) (g : GrantRecord) :
    (s.sendNotice w v n g).berth = s.berth :=
  (updateGrant_berth ..).trans ((send_berth ..).trans (setPort_berth s rfl))

@[simp] theorem addGrant_berth (w : WindowId) (n : NodeId) (base : Nat) (r : Rights) :
    (s.addGrant w n base r).berth = s.berth := by
  simp [State.addGrant]

@[simp] theorem suspend_berth (w : WindowId) (v : Live) : (s.suspend w v).berth = s.berth := by
  unfold State.suspend
  simp only []
  split <;> simp

/-! ### The Copy Engine and the port -/

theorem endTurn_beyondEngine : s.endTurn.beyondEngine = s.beyondEngine := by
  unfold State.endTurn
  split <;> simp

theorem endAbortedTurn_beyondEngine (j : SlotId) : (s.endAbortedTurn j).beyondEngine = s.beyondEngine := by
  rw [State.endAbortedTurn, lookDrain_beyondEngine, endTurn_beyondEngine]

theorem afterChunk_beyondEngine (j : SlotId) (job : Job) : (s.afterChunk j job).beyondEngine = s.beyondEngine := by
  unfold State.afterChunk
  split <;> simp [State.switch]

@[simp] theorem migrate_berth (w : WindowId) (v : Live) (j : SlotId) (target : Extent) (free : List Extent) :
    (s.migrate w v j target free).berth = s.berth := by
  refine berth_of_engine ?_
  simp only [State.migrate]
  split
  · rw [startTurn_beyondEngine, updateLive_beyondEngine]
    rfl
  · rw [updateLive_beyondEngine]
    rfl

@[simp] theorem ackSource_berth (i : Fin 73) (named : BitVec 6) : (s.ackSource i named).berth = s.berth := by
  unfold State.ackSource State.releaseSlot
  simp only []
  split
  · split <;> rfl
  · rfl

@[simp] theorem writeControl_berth (value : Word) : (s.writeControl value).berth = s.berth := by
  unfold State.writeControl
  split
  · unfold State.softReset State.abandonCommand
    split <;> rfl
  · rfl

@[simp] theorem writeCommand_berth (code : Word) : (s.writeCommand code).berth = s.berth := by
  unfold State.writeCommand
  split <;> rfl

@[simp] theorem writeParam_berth (k : Fin 8) (value : Word) : (s.writeParam k value).berth = s.berth := by
  unfold State.writeParam
  split <;> rfl

@[simp] theorem writeSlot_berth (i : Fin 16) (value : Word) : (s.writeSlot i value).berth = s.berth := by
  unfold State.writeSlot
  split <;> simp

@[simp] theorem tick_berth : s.tick.berth = s.berth := by
  unfold State.tick
  split <;> rfl

theorem reach_berth {s u : State} {t : Nat} (h : s.reach t = some u) : u.berth = s.berth := by
  unfold State.reach at h
  split at h
  · obtain rfl := Option.some.inj h
    rfl
  · simp at h

theorem installWindows_berth (i : Nat) (ws : List ImageWindow) : (s.installWindows i ws).berth = s.berth := by
  have hgrants : ∀ (w : WindowId) (gs : List ImageGrant) (s : State),
      (gs.foldl (State.installGrant w) s).berth = s.berth := by
    intro w gs
    induction gs with
    | nil => exact fun _ => rfl
    | cons g gs ih => exact fun s => (ih _).trans (addGrant_berth ..)
  induction ws generalizing s i with
  | nil => rfl
  | cons x rest ih => exact (ih ..).trans ((hgrants ..).trans (makeWindow_berth ..))

end Frames

/-! ### Entries that leave their queues -/

section Shortening

variable (s : State)

theorem faultHeld_appends (n : NodeId) (hit : HoldEntry → Bool) (r : FaultReason) :
    s.Appends (s.faultHeld n hit r) := by
  have hfold : ∀ (l : List HoldEntry) (s : State), s.Appends (l.foldl (State.faultEntry n r) s) := by
    intro l
    induction l with
    | nil => exact .refl
    | cons e l ih => exact fun s => ((updateLive_appends s e.window _).trans (faultTag_appends ..)).trans (ih _)
  exact .trans (.of_port (t := s.setHold n ((s.hold n).filter fun e => !hit e)) rfl) (hfold _ _)

/-- Entries made hopeless only leave (R106). -/
theorem length_hold_faultHeld (n : NodeId) (hit : HoldEntry → Bool) (r : FaultReason) (m : NodeId) :
    ((s.faultHeld n hit r).hold m).length ≤ (s.hold m).length := by
  rw [hold_faultHeld]
  by_cases hm : m = n
  · subst hm
    rw [Function.update_self]
    exact List.length_filter_le ..
  · rw [Function.update_of_ne hm]

/-- What a replay pass never changes of an entry it holds again (R99). -/
def HoldEntry.lasting (e : HoldEntry) : Tag × WindowId × Nat × Nat := (e.tag, e.window, e.chunk, e.expiry)

theorem hold_beginExecution (n : NodeId) (u : Tag) (q : Request) (f : Matched) :
    (s.beginExecution n u q f).hold = s.hold := by
  cases hv : (s.window f.window).life with
  | none => rw [beginExecution_of_free hv]
  | some v =>
    obtain ⟨-, -, -, -, -, -, hhold, -⟩ := beginExecution_record hv n u q
    exact hhold

theorem hold_faultEntry (n : NodeId) (r : FaultReason) (e : HoldEntry) : (s.faultEntry n r e).hold = s.hold :=
  hold_foldl_faultEntry n r [e] s

theorem hold_executeEntry (n : NodeId) (e : HoldEntry) (q : Request) (f : Matched) :
    ((s.lowerHeld e.window n).beginExecution n e.tag q f).hold = s.hold :=
  (hold_beginExecution ..).trans (updateLive_hold ..)

/-- A pass keeps the entries it has held again in front and adds some of those still to come, in their places; the
other queues are left alone (R99). -/
theorem hold_replayEntries (n : NodeId) (rest kept : List HoldEntry) :
    (∃ again, (replayEntries n kept rest s).state.hold n = kept ++ again ∧
        (again.map HoldEntry.lasting).Sublist (rest.map HoldEntry.lasting)) ∧
      ∀ m, m ≠ n → (replayEntries n kept rest s).state.hold m = s.hold m := by
  induction rest generalizing kept s with
  | nil =>
    refine ⟨⟨[], by simp [replayEntries]⟩, fun m hm => ?_⟩
    rw [replayEntries, hold_setHold, if_neg (Ne.symm hm)]
  | cons e rest ih =>
    simp only [replayEntries]
    split
    · obtain ⟨⟨again, hhold, hsub⟩, hothers⟩ := ih s (kept ++ [e])
      exact ⟨⟨e :: again, by simp [hhold], by simpa using hsub⟩, hothers⟩
    · split
      · rename_i c _
        obtain ⟨⟨again, hhold, hsub⟩, hothers⟩ := ih (s.setTag n e.tag _) (kept ++ [{ e with cause := c }])
        exact ⟨⟨{ e with cause := c } :: again, by simp [hhold], by simpa [HoldEntry.lasting] using hsub⟩, hothers⟩
      · rename_i r _
        obtain ⟨⟨again, hhold, hsub⟩, hothers⟩ := ih (s.faultEntry n r e) kept
        exact ⟨⟨again, hhold, hsub.cons _⟩, fun m hm => (hothers m hm).trans (congrFun (hold_faultEntry ..) m)⟩
      · obtain ⟨⟨again, hhold, hsub⟩, hothers⟩ := ih ((s.lowerHeld e.window n).beginExecution n e.tag _ _) kept
        exact ⟨⟨again, hhold, hsub.cons _⟩, fun m hm => (hothers m hm).trans (congrFun (hold_executeEntry ..) m)⟩

/-- A pass over a queue takes entries out and holds others again in their places (R99). -/
theorem hold_replay_sublist (n : NodeId) :
    (((s.replay n).state.hold n).map HoldEntry.lasting).Sublist ((s.hold n).map HoldEntry.lasting) := by
  obtain ⟨again, hhold, hsub⟩ := (hold_replayEntries s n (s.hold n) []).1
  rwa [State.replay, hhold]

/-- A pass leaves the other queues alone (R99). -/
theorem hold_replay_of_ne {n m : NodeId} (hm : m ≠ n) : (s.replay n).state.hold m = s.hold m :=
  (hold_replayEntries s n (s.hold n) []).2 m hm

theorem length_hold_replay (n m : NodeId) : ((s.replay n).state.hold m).length ≤ (s.hold m).length := by
  by_cases hm : m = n
  · subst hm
    simpa using (hold_replay_sublist s m).length_le
  · rw [hold_replay_of_ne s hm]

end Shortening

end Sys2Proof.Machine
end

section
/-! SUPPORT. Every step keeps the bound on hold queues (R96, R105). -/

namespace Sys2Proof.Machine

namespace State.HoldsBounded

variable {s : State} (h : s.HoldsBounded)
include h

/-! ### Hold queues and replay -/

theorem faultHeld (n : NodeId) (hit : HoldEntry → Bool) (r : FaultReason) : (s.faultHeld n hit r).HoldsBounded :=
  h.shortened (length_hold_faultHeld s n hit r) (faultHeld_appends s n hit r)

theorem replay (n : NodeId) : (s.replay n).state.HoldsBounded :=
  h.shortened (length_hold_replay s n) (replayEntries_appends ..)

theorem replayWindow (w : WindowId) : (s.replayWindow w).state.HoldsBounded := by
  have hfold : ∀ (l : List NodeId) (p : Pass), p.state.HoldsBounded →
      (l.foldl (Pass.node w) p).state.HoldsBounded := by
    intro l
    induction l with
    | nil => exact fun _ hp => hp
    | cons n l ih =>
      intro p hp
      refine ih _ ?_
      unfold Pass.node
      split
      · exact hp.replay n
      · exact hp
  exact hfold _ _ h

theorem expireHolds (n : NodeId) (t : Nat) : (s.expireHolds n t).HoldsBounded := (h.faultHeld n _ _).replay n

/-- A request joins a queue of fewer than eight entries, and only that of an ADMITTED node (R83, R97). -/
theorem takeHold {n : NodeId} (hroom : (s.hold n).length < 8) (hl : s.link n = .admitted) (u : Tag) (q : Request)
    (f : Matched) (c : Cause) : (s.takeHold n u q f c).HoldsBounded := by
  have hlink : (s.takeHold n u q f c).link = s.link :=
    funext (updateLive_appends ((s.setHold n _).setTag n u _) f.window _).link
  refine h.of_one (n := n) (fun m hm => ⟨hold_takeHold_of_ne hm, congrFun hlink m⟩) ?_ fun hc => ?_
  · rw [hold_takeHold_same, List.length_append]
    exact hroom
  · rw [hlink] at hc
    exact absurd hl hc

theorem settle {n : NodeId} (hl : s.link n = .admitted) (u : Tag) (q : Request) : (s.settle n u q).HoldsBounded := by
  unfold State.settle
  split
  · exact h.of_berth (sendFault_berth ..)
  · unfold State.offerHold
    split
    · exact h.of_berth (send_berth ..)
    · exact h.takeHold (by omega) hl u q _ _
  · exact h.of_berth (berth_of_appends (hold_beginExecution ..) (beginExecution_appends ..))

theorem arrive (n : NodeId) (u : Tag) (q : Request) : (s.arrive n u q).HoldsBounded := by
  unfold State.arrive
  split
  · exact h
  · exact h.of_berth (raise_berth ..)
  · exact h.of_berth (sendFault_berth ..)
  · exact h.of_berth (sendFault_berth ..)
  · rename_i hl
    split_ifs
    · exact h.of_berth (raise_berth ..)
    · exact h.of_berth (sendFault_berth ..)
    · exact h.settle hl u q

/-! ### Fencing and links -/

/-- A fence drain that ends moves a node that is FENCING, which holds nothing (R70). -/
theorem endFenceDrain (n : NodeId) : (s.endFenceDrain n).HoldsBounded := by
  unfold State.endFenceDrain
  split
  · rename_i hc
    have hempty : s.hold n = [] := (h n).2 (by simp [hc.1])
    exact (h.setLink (l := .fenced) fun _ => hempty).of_berth (raise_berth ..)
  · exact h

/-- The entry to FENCING empties the queue of its node (R69, R105). -/
theorem enterFencing (n : NodeId) : (s.enterFencing n).HoldsBounded := by
  have hempty := hold_fenceFaulted s n
  have hfaulted : (s.fenceFaulted n).HoldsBounded := by
    refine h.of_one (n := n) (fun m hm => ⟨?_, ?_⟩) (by simp [hempty]) fun _ => hempty
    · rw [State.fenceFaulted, hold_faultHeld, Function.update_of_ne hm, hold_of_ledger (fenceTold_ledger s n)]
    · rw [State.fenceFaulted, (faultHeld_appends ..).link, State.fenceTold, link_setLink, if_neg (Ne.symm hm), link_send]
  rw [enterFencing_eq]
  exact hfaulted.endFenceDrain n

/-- A link that goes down or restarts leaves its node with nothing held (R65, R66, R107). -/
theorem dropNode (n : NodeId) : (s.dropNode n).HoldsBounded ∧ (s.dropNode n).hold n = [] := by
  have hempty : (s.dropNode n).hold n = [] := by rw [hold_dropNode, if_pos rfl]
  refine ⟨h.of_one (n := n) (fun m hm => ⟨?_, ?_⟩) (by simp [hempty]) fun _ => hempty, hempty⟩
  · rw [hold_dropNode, if_neg (Ne.symm hm)]
  · rw [State.link, port_dropNode, if_neg (Ne.symm hm), State.link]

theorem firstHello {n : NodeId} (hl : s.link n = .listening) (identity : Word) :
    (s.firstHello n identity).HoldsBounded := by
  have hempty : s.hold n = [] := (h n).2 (by simp [hl])
  have hknown : ((s.recordIdentity n identity).updateStanding n).berth = s.berth := by simp
  exact ((h.of_berth hknown).setLink fun _ => (congrArg Prod.fst (congrFun hknown n)).trans hempty).of_berth
    (send_berth ..)

theorem restart (n : NodeId) (identity : Word) : (s.restart n identity).HoldsBounded := by
  obtain ⟨hdropped, hempty⟩ := h.dropNode n
  have hknown : (((s.dropNode n).recordIdentity n identity).updateStanding n).berth = (s.dropNode n).berth := by simp
  exact ((hdropped.of_berth hknown).setLink fun _ => (congrArg Prod.fst (congrFun hknown n)).trans hempty).of_berth
    (send_berth ..)

theorem hello (n : NodeId) (identity : Word) : (s.hello n identity).HoldsBounded := by
  unfold State.hello
  split
  · exact h
  · exact h.firstHello ‹_› identity
  all_goals exact h.restart n identity

theorem linkDown (n : NodeId) : (((s.dropNode n).raise (.nodeDown n)).setLink n .down).HoldsBounded := by
  obtain ⟨hdropped, hempty⟩ := h.dropNode n
  exact (hdropped.of_berth (raise_berth ..)).setLink fun _ => by rw [State.raise, setReasons_hold, hempty]

/-! ### Grants -/

theorem unlist (w : WindowId) (n : NodeId) : (s.unlist w n).HoldsBounded := by
  rw [unlist_eq]
  exact ((h.of_berth (delist_berth ..)).faultHeld n (fun e => e.window == w) .revoked).of_berth
    (removeIfDrained_berth ..)

theorem acknowledge (n : NodeId) (number : Byte) : (s.acknowledge n number).HoldsBounded := by
  unfold State.acknowledge
  split
  · exact h
  · split
    · exact h.unlist _ n
    · exact h.of_berth (raise_berth ..)

theorem deliver (n : NodeId) (m : Inbound) : (s.deliver n m).HoldsBounded := by
  cases m with
  | hello identity => exact h.hello n identity
  | read t addr len => exact h.arrive n t _
  | write t addr len data => exact h.arrive n t _
  | revokeAck number => exact h.acknowledge n number

theorem forceRemoval (w : WindowId) (n : NodeId) : (s.forceRemoval w n).HoldsBounded := by
  have hforced : ((s.unlist w n).raise (.revokeForced w)).HoldsBounded := (h.unlist w n).of_berth (raise_berth ..)
  unfold State.forceRemoval State.policyFence
  split
  · exact hforced.enterFencing n
  · exact hforced

theorem withdraw (w : WindowId) (v : Live) (n : NodeId) (g : GrantRecord) : (s.withdraw w v n g).HoldsBounded := by
  unfold State.withdraw
  split
  · exact h.of_berth (sendNotice_berth ..)
  · exact h.unlist w n

theorem retireGrant (w : WindowId) (n : NodeId) : (State.retireGrant w s n).HoldsBounded := by
  unfold State.retireGrant
  split
  · exact h
  · split
    · exact h.withdraw w _ n _
    all_goals exact h

theorem retire (w : WindowId) : (s.retire w).HoldsBounded := by
  have hbegun : (s.updateLive w fun v => { v with state := .retiring, quietPending := false }).HoldsBounded :=
    h.of_berth (updateLive_berth ..)
  have hfaulted := hbegun.foldl (f := fun s n => s.faultHeld n (fun e => e.window == w) .windowRetired)
    (fun n hs => hs.faultHeld n _ _) allNodes
  have hwithdrawn := hfaulted.foldl (f := State.retireGrant w) (fun n hs => hs.retireGrant w n) allNodes
  unfold State.retire
  exact hwithdrawn.of_berth (retireIfEmpty_berth _ w)

/-! ### The Copy Engine and the ends of operations -/

theorem of_engine {t : State} (ht : t.beyondEngine = s.beyondEngine) : t.HoldsBounded := h.of_berth (berth_of_engine ht)

theorem enterAborting (j : SlotId) (r : AbortReason) : (s.enterAborting j r).HoldsBounded := by
  unfold State.enterAborting
  split
  · rename_i job _ _
    have hturned : ((s.setSlot j (.aborting job r)).endWaiting j).HoldsBounded := h.of_engine (by simp)
    simp only []
    refine State.HoldsBounded.of_engine ?_ (lookDrain_beyondEngine ..)
    split
    · exact hturned.replayWindow _
    · exact hturned
  all_goals exact h

theorem mirrorFailed (w : WindowId) : (s.mirrorFailed w).HoldsBounded := by
  unfold State.mirrorFailed
  split
  · exact h
  · split
    · exact h.enterAborting _ _
    all_goals exact h

theorem copyFailed (j : SlotId) (r : AbortReason) : (s.copyFailed j r).HoldsBounded :=
  ((h.of_engine (setPhase_beyondEngine s .idle)).enterAborting j r).of_engine (endTurn_beyondEngine _)

omit h in
theorem copyReadEnded {r : OpEnd} (h : r.state.HoldsBounded) (j : SlotId) : (State.copyReadEnded j r).HoldsBounded := by
  unfold State.copyReadEnded
  split
  · split
    · exact h.copyFailed j _
    · exact h.of_berth (issueCopyWrite_berth ..)
  all_goals exact h.of_engine (endAbortedTurn_beyondEngine ..)

omit h in
theorem copyWriteEnded {r : OpEnd} (h : r.state.HoldsBounded) (j : SlotId) :
    (State.copyWriteEnded j r).HoldsBounded := by
  unfold State.copyWriteEnded
  split
  · split
    · exact h.copyFailed j _
    · rename_i job _ _ _
      have hrisen : ((r.state.setPhase .idle).afterChunk j { job with cursor := job.cursor + chunkBytes }).HoldsBounded :=
        h.of_engine (by rw [afterChunk_beyondEngine, setPhase_beyondEngine])
      exact (hrisen.replayWindow _).of_engine (endTurn_beyondEngine _)
  all_goals exact h.of_engine (endAbortedTurn_beyondEngine ..)

/-- The end of a transaction answers its tag and moves no node but one whose fence drain ends (R87, R88). -/
theorem endTransaction (x : Transaction) : (s.endTransaction x).HoldsBounded := by
  have hclosed : (s.closeRecord x).HoldsBounded := by
    obtain ⟨-, hhold, -, -⟩ := answerTag_frame s x
    have hanswered : (s.answerTag x).berth = s.berth := berth_of_appends hhold answerTag_appends
    exact h.of_berth ((updateLive_berth ((s.answerTag x).dropRecord x) ..).trans hanswered)
  rw [endTransaction_eq]
  have htold : (((s.closeRecord x).tellDirectory x.window).removeIfDrained x.window x.node).HoldsBounded :=
    hclosed.of_berth (by simp)
  exact (htold.endFenceDrain x.node).of_engine (tellEngine_beyondEngine ..)

theorem operationEnded (x : Transaction) (role : Role) (r : OpEnd) : (s.operationEnded x role r).HoldsBounded := by
  have hnoted : (s.noteOp x role r.failed r.bytes).HoldsBounded := h.of_berth rfl
  have htold : (if r.failed && x.mirrored && role == .target then
      (s.noteOp x role r.failed r.bytes).mirrorFailed x.window else s.noteOp x role r.failed r.bytes).HoldsBounded := by
    split
    · exact hnoted.mirrorFailed _
    · exact hnoted
  unfold State.operationEnded
  simp only []
  split
  · exact htold
  · exact htold.endTransaction _

/-! ### Start-up -/

theorem decidePort (n : NodeId) : (s.decidePort n).HoldsBounded := by
  unfold State.decidePort
  split
  · have hclosed : (s.setPort n { s.port n with standing := .closed }).HoldsBounded := h.of_berth (setPort_berth s rfl)
    simp only []
    split
    · exact (hclosed.setLink fun hc => absurd rfl hc).of_berth (send_berth ..)
    · exact hclosed
  · exact h

theorem endBoot (status : BootStatus) (mask : BitVec 4) (f : Flag) : (s.endBoot status mask f).HoldsBounded := by
  have hmask : ({ s with maskInForce := mask } : State).HoldsBounded := h
  have hports := hmask.foldl (f := State.decidePort) (fun n hs => hs.decidePort n) allNodes
  unfold State.endBoot
  generalize allNodes.foldl State.decidePort { s with maskInForce := mask } = t at hports ⊢
  exact hports

theorem install (eeprom : List Byte) : (s.install eeprom).HoldsBounded := by
  unfold State.install
  split
  · rename_i m _
    have himage : (s.installImage m).HoldsBounded :=
      h.of_berth (installWindows_berth { s with settings := s.settings.ofImage m } 0 m.windows)
    exact himage.endBoot _ _ _
  · exact h.endBoot _ _ _

/-! ### Commands -/

variable (p : Vector Word 8)

theorem completeCreateWindow : (completeCreateWindow p s).state.HoldsBounded := by
  unfold Machine.completeCreateWindow
  split
  · exact h
  · split
    · exact h
    · split
      · exact h
      · split
        · exact h
        · split
          · split <;> exact h
          · exact h.of_berth (makeWindow_berth ..)

theorem completeGrant : (completeGrant p s).state.HoldsBounded := by
  unfold Machine.completeGrant
  split
  · exact h
  · split
    · exact h
    · exact h
    · split_ifs
      · exact h
      · exact h
      · unfold placeGrant
        split
        · exact h
        · split_ifs
          · exact h
          · split
            · exact h
            · exact h.of_berth (addGrant_berth ..)

theorem completeSetRights : (completeSetRights p s).state.HoldsBounded := by
  unfold Machine.completeSetRights
  split
  · exact h
  · split
    · exact h
    · exact h
    · split
      · exact h
      · split_ifs
        · exact h
        · exact h.of_berth (updateGrant_berth ..)

/-- A node that becomes ADMITTED may hold what it holds (R67). -/
theorem completeAdmitNode : (completeAdmitNode p s).state.HoldsBounded := by
  unfold Machine.completeAdmitNode
  split
  · exact h
  · split
    · exact (h.setLink fun hc => absurd rfl hc).of_berth (send_berth ..)
    · exact h

theorem completeFenceNode : (completeFenceNode p s).state.HoldsBounded := by
  unfold Machine.completeFenceNode
  split
  · exact h
  · split
    · rename_i n _ _
      simp only [carriedOut]
      exact h.enterFencing n
    · exact h

theorem completeReleaseFaultCapture : (completeReleaseFaultCapture p s).state.HoldsBounded := by
  unfold Machine.completeReleaseFaultCapture
  split
  · exact h
  · exact h.of_berth rfl

theorem completeSuspend : (completeSuspend p s).state.HoldsBounded := by
  unfold Machine.completeSuspend
  split
  · exact h
  · exact h.of_berth (suspend_berth ..)

theorem completeResume : (completeResume p s).state.HoldsBounded := by
  unfold Machine.completeResume
  split
  · exact h
  · rename_i w v _
    have hactive : (s.updateLive w fun v => { v with state := .active, quietPending := false }).HoldsBounded :=
      h.of_berth (updateLive_berth ..)
    simp only [carriedOut]
    exact hactive.replayWindow w

theorem completeRevoke : (completeRevoke p s).state.HoldsBounded := by
  unfold Machine.completeRevoke
  split
  · exact h
  · split
    · exact h
    · split
      · exact h
      · split
        · exact h
        · exact h
        · split <;> exact h.withdraw _ _ _ _

theorem completeRetire : (completeRetire p s).state.HoldsBounded := by
  unfold Machine.completeRetire
  split
  · exact h
  · rename_i w _ _
    simp only [carriedOut]
    exact h.retire w

theorem completeMigrate : (completeMigrate p s).state.HoldsBounded := by
  unfold Machine.completeMigrate
  split
  · exact h
  · split
    · exact h
    · split
      · exact h
      · split
        · exact h
        · split
          · split <;> exact h
          · exact h.of_berth (migrate_berth ..)

theorem completeAbortJob : (completeAbortJob p s).state.HoldsBounded := by
  unfold Machine.completeAbortJob
  split
  · exact h
  · split
    · exact h.enterAborting _ _
    all_goals exact h

theorem completeSettings :
    (completeSetTimers p s).state.HoldsBounded ∧ (completeSetPolicy p s).state.HoldsBounded := by
  unfold completeSetTimers completeSetPolicy
  constructor <;> split <;> exact h

theorem completeAckAttention : (completeAckAttention p s).state.HoldsBounded := by
  unfold Machine.completeAckAttention
  split
  · simp only []
    split
    · exact h
    · exact h.of_berth (ackSource_berth ..)
  · exact h

theorem complete (c : Cmd) : (complete c p s).state.HoldsBounded := by
  cases c with
  | nop => exact h
  | identify => exact h
  | setTimers => exact (h.completeSettings p).1
  | setPolicy => exact (h.completeSettings p).2
  | getAttention => exact (completeGetAttention_state p s).symm ▸ h
  | ackAttention => exact h.completeAckAttention p
  | createWindow => exact h.completeCreateWindow p
  | queryWindow => exact (completeQueryWindow_state p s).symm ▸ h
  | queryFree => exact (completeQueryFree_state p s).symm ▸ h
  | grant => exact h.completeGrant p
  | setRights => exact h.completeSetRights p
  | queryGrant => exact (completeQueryGrant_state p s).symm ▸ h
  | lookup => exact (completeLookup_state p s).symm ▸ h
  | admitNode => exact h.completeAdmitNode p
  | fenceNode => exact h.completeFenceNode p
  | readFaultCapture => exact (completeReadFaultCapture_state p s).symm ▸ h
  | releaseFaultCapture => exact h.completeReleaseFaultCapture p
  | suspend => exact h.completeSuspend p
  | resume => exact h.completeResume p
  | revoke => exact h.completeRevoke p
  | retire => exact h.completeRetire p
  | migrate => exact h.completeMigrate p
  | abortJob => exact h.completeAbortJob p
  | queryJob => exact (completeQueryJob_state p s).symm ▸ h

end State.HoldsBounded

/-! ### Events and steps -/

theorem holdsBounded_deviceReset (s : State) (cause : ResetCause) : (s.deviceReset cause).HoldsBounded := by
  have hempty : ∀ n, (s.deviceReset cause).hold n = [] := by
    intro n
    cases cause <;> exact hold_reset n
  intro n
  simp [hempty]

namespace State.HoldsBounded

variable {s t : State} (h : s.HoldsBounded)
include h

/-- Every event other than the taking of a command keeps the bound. -/
theorem exec_event {i : Instr} (hc : commandRow i = none) (ht : exec i s = .next t) : t.HoldsBounded := by
  have hcontrol : ∀ value : Word, (s.writeControl value).HoldsBounded := fun value => h.of_berth (writeControl_berth ..)
  cases i with
  | paramWrite slot value =>
    simp only [exec, execParamWrite] at ht
    exact Enduring.event h (h.of_berth (writeSlot_berth ..)) ht
  | clearOverrun value =>
    simp only [exec, execClearOverrun] at ht
    exact Enduring.event h (hcontrol value) ht
  | clearCmdDone value =>
    simp only [exec, execClearCmdDone] at ht
    exact Enduring.event h (hcontrol value) ht
  | softReset value =>
    simp only [exec, execSoftReset] at ht
    exact Enduring.event h (hcontrol value) ht
  | deviceReset cause =>
    obtain rfl := Host.Outcome.next.inj ht
    exact holdsBounded_deviceReset s cause
  | resetRelease psz booten =>
    obtain rfl := Host.Outcome.next.inj ht
    split
    · exact h.of_berth rfl
    · exact h
  | bootInstall eeprom =>
    simp only [exec, execBootInstall] at ht
    refine Enduring.event h ?_ ht
    split
    · exact h.install eeprom
    · exact h
  | linkUp n =>
    simp only [exec, execLinkUp] at ht
    refine Enduring.event h ?_ ht
    split
    · rename_i hl
      exact h.setLink fun _ => (h n).2 (by simp [hl])
    · exact h
  | linkDown n =>
    simp only [exec, execLinkDown] at ht
    refine Enduring.event h ?_ ht
    split
    · exact h
    · exact h.linkDown n
  | hello n identity =>
    simp only [exec, execHello] at ht
    exact Enduring.event h (h.hello n identity) ht
  | read n u addr len =>
    simp only [exec, execRead] at ht
    exact Enduring.event h (h.arrive n u _) ht
  | write n u addr len data =>
    simp only [exec, execWrite] at ht
    refine Enduring.event h ?_ ht
    split
    · exact h.arrive n u _
    · exact h.of_berth (malformed_berth ..)
  | revokeAck n number =>
    simp only [exec, execRevokeAck] at ht
    exact Enduring.event h (h.acknowledge n number) ht
  | malformedMessage n bytes =>
    simp only [exec, execMalformedMessage] at ht
    refine Enduring.event h ?_ ht
    split
    · exact h.of_berth (malformed_berth ..)
    · exact h.deliver n _
  | handToLinkLayer n =>
    simp only [exec, execHandToLinkLayer] at ht
    refine Enduring.event h ?_ ht
    split
    · exact h
    · exact h.of_berth (setPort_berth s rfl)
  | transactionOperationEnd c dramFault =>
    simp only [exec, execTransactionOperationEnd] at ht
    refine Enduring.event h ?_ ht
    split
    · exact h
    · split
      · exact h
      · split
        · exact h
        · exact (h.of_berth (endOp_berth s c _ _ dramFault)).operationEnded _ _ _
  | holdExpiry n =>
    simp only [exec, execHoldExpiry] at ht
    refine Enduring.event h ?_ ht
    split
    · exact h
    · split
      · exact h
      · exact (h.of_berth (reach_berth ‹_›)).expireHolds n _
  | revokeDeadline w n =>
    simp only [exec, execRevokeDeadline] at ht
    refine Enduring.event h ?_ ht
    split
    · exact h
    · split
      · exact h
      · exact (h.of_berth (reach_berth ‹_›)).forceRemoval w n
  | copyReadEnd dramFault =>
    simp only [exec, execCopyReadEnd] at ht
    refine Enduring.event h ?_ ht
    split
    · split
      · exact h
      · exact copyReadEnded (h.of_berth (endOp_berth ..)) _
    all_goals exact h
  | copyWriteEnd dramFault =>
    simp only [exec, execCopyWriteEnd] at ht
    refine Enduring.event h ?_ ht
    split
    · split
      · exact h
      · exact copyWriteEnded (h.of_berth (endOp_berth ..)) _
    all_goals exact h
  | pacingEnd =>
    simp only [exec, execPacingEnd] at ht
    refine Enduring.event h ?_ ht
    split
    · split
      · exact h
      · exact (h.of_berth (reach_berth ‹_›)).of_engine (by simp)
    all_goals exact h
  | commandCompletion =>
    simp only [exec, execCommandCompletion] at ht
    refine Enduring.event h ?_ ht
    split
    · exact h
    · rename_i taken _
      have hrun : (runTaken taken s).state.HoldsBounded := by
        unfold runTaken
        split
        · exact h.complete _ _
        · exact h
      exact hrun.of_berth rfl
  | _ => simp [commandRow] at hc

/-- Every command and event keeps the bound. -/
theorem exec (i : Instr) (ht : exec i s = .next t) : t.HoldsBounded := by
  cases hc : commandRow i with
  | some code =>
    rw [exec_of_commandRow hc] at ht
    exact Enduring.event h (h.of_berth (writeCommand_berth s code)) ht
  | none => exact h.exec_event hc ht

end State.HoldsBounded

/-- Settles O54: only an arrival makes a queue longer, and it finds an ADMITTED node with room; every other event
shortens queues, and what takes a node out of ADMITTED empties its queue. -/
theorem stepKeepsHoldsBounded : Obligations.StepKeepsHoldsBounded := by
  intro s t h ht
  unfold step at ht
  split at ht
  · obtain rfl := Host.Outcome.next.inj ht
    exact h.of_berth (tick_berth s)
  · rename_i i rest _
    have hpopped : ({ s with pending := rest } : State).HoldsBounded := h
    exact hpopped.exec i ht

end Sys2Proof.Machine
end

section
/-! SUPPORT. Time: the microsecond that passes on an empty queue, and the moments of the timed events (log 5). -/

namespace Sys2Proof.Machine

/-! ### The time that is reached -/

section Reach

variable {s : State} {t : Nat}

/-- A time is not reached while an earlier one is still waited for (log 5). -/
theorem reach_of_earlier {x : Nat} (hx : x ∈ s.timers) (hlt : x < t) : s.reach t = none := by
  rw [State.reach, if_neg]
  intro hall
  have hle := List.all_eq_true.1 hall x hx
  simp only [decide_eq_true_eq] at hle
  omega

/-- The first of the times waited for is reached (log 5). -/
theorem reach_of_first (h : ∀ x ∈ s.timers, t ≤ x) : s.reach t = some { s with now := max s.now t } := by
  rw [State.reach, if_pos]
  simpa using h

/-- A microsecond passes when reset is released and every time waited for lies ahead (log 5). -/
theorem tick_of_ahead (hr : s.resetHeld = false) (h : ∀ x ∈ s.timers, s.now < x) :
    s.tick = { s with now := s.now + 1 } := by
  rw [State.tick, if_neg]
  simpa [hr] using h

/-- Time stands while an event is due or reset is held (log 5). -/
theorem tick_of_standing (h : s.resetHeld = true ∨ ∃ x ∈ s.timers, x ≤ s.now) : s.tick = s := by
  rw [State.tick, if_pos]
  simpa using h

theorem step_of_idle (h : s.pending = []) : step s = .next s.tick := by
  simp only [step, h]

/-- Every expiry of a held entry is waited for (R102). -/
theorem expiry_mem_timers {n : NodeId} {e : HoldEntry} (he : e ∈ s.hold n) : e.expiry ∈ s.timers := by
  have hexpiry : e.expiry ∈ allNodes.flatMap fun n => (s.hold n).map fun e => e.expiry :=
    List.mem_flatMap.2 ⟨n, mem_allNodes n, List.mem_map_of_mem he⟩
  rw [State.timers, List.mem_append, List.mem_append]
  exact .inl (.inl hexpiry)

end Reach

/-! ### The earliest expiry of a queue -/

/-- The earliest expiry of a queue is that of an entry, and no entry's is earlier. -/
theorem earliestExpiry_eq_some {l : List HoldEntry} {t : Nat} (h : earliestExpiry l = some t) :
    (∃ e ∈ l, e.expiry = t) ∧ ∀ e ∈ l, t ≤ e.expiry := by
  induction l generalizing t with
  | nil => simp [earliestExpiry] at h
  | cons e rest ih =>
    unfold earliestExpiry at h
    split at h
    · rename_i hrest
      have hnil : rest = [] := by
        cases rest with
        | nil => rfl
        | cons x l =>
          unfold earliestExpiry at hrest
          split at hrest <;> simp at hrest
      obtain rfl := Option.some.inj h
      simp [hnil]
    · rename_i u hrest
      obtain rfl := Option.some.inj h
      obtain ⟨⟨x, hx, hxu⟩, hmin⟩ := ih hrest
      refine ⟨?_, fun y hy => ?_⟩
      · rcases Nat.le_total e.expiry u with hle | hle
        · exact ⟨e, List.mem_cons_self .., (Nat.min_eq_left hle).symm⟩
        · exact ⟨x, List.mem_cons_of_mem _ hx, hxu.trans (Nat.min_eq_right hle).symm⟩
      · rcases List.mem_cons.1 hy with rfl | hy
        · exact Nat.min_le_left ..
        · exact (Nat.min_le_right ..).trans (hmin y hy)

/-- A queue that holds an entry has an earliest expiry. -/
theorem earliestExpiry_of_mem {l : List HoldEntry} {e : HoldEntry} (he : e ∈ l) : ∃ t, earliestExpiry l = some t := by
  cases l with
  | nil => simp at he
  | cons x l =>
    unfold earliestExpiry
    split <;> exact ⟨_, rfl⟩

/-! ### The timed events -/

section Timed

variable {s : State} (hr : s.resetHeld = false)
include hr

/-- HOLD_EXPIRY before the earliest expiry of its queue changes nothing (log 5). -/
theorem exec_holdExpiry_early {x : Nat} (hx : x ∈ s.timers) {n : NodeId} (h : ∀ e ∈ s.hold n, x < e.expiry) :
    exec (.holdExpiry n) s = .next s := by
  simp only [exec, execHoldExpiry, event_free hr]
  split
  · rfl
  · rename_i t ht
    obtain ⟨⟨e, he, rfl⟩, -⟩ := earliestExpiry_eq_some ht
    rw [reach_of_earlier hx (h e he)]

/-- HOLD_EXPIRY at the first of the times waited for (R102). -/
theorem exec_holdExpiry_due {n : NodeId} {t : Nat} (he : ∃ e ∈ s.hold n, e.expiry = t) (hfirst : ∀ x ∈ s.timers, t ≤ x) :
    exec (.holdExpiry n) s = .next (({ s with now := max s.now t } : State).expireHolds n t) := by
  obtain ⟨e, he, rfl⟩ := he
  obtain ⟨u, hu⟩ := earliestExpiry_of_mem he
  obtain ⟨⟨x, hx, rfl⟩, hmin⟩ := earliestExpiry_eq_some hu
  have heq : x.expiry = e.expiry := Nat.le_antisymm (hmin e he) (hfirst _ (expiry_mem_timers hx))
  simp only [exec, execHoldExpiry, event_free hr, hu, heq, reach_of_first hfirst]

theorem exec_revokeDeadline_early {x t : Nat} (hx : x ∈ s.timers) {w : WindowId} {n : NodeId}
    (ht : s.deadlineOf w n = some t) (hlt : x < t) : exec (.revokeDeadline w n) s = .next s := by
  simp only [exec, execRevokeDeadline, event_free hr, ht, reach_of_earlier hx hlt]

theorem exec_pacingEnd_early {x t : Nat} (hx : x ∈ s.timers) (ht : s.engine.phase = .pacing t) (hlt : x < t) :
    exec .pacingEnd s = .next s := by
  simp only [exec, execPacingEnd, event_free hr, ht, reach_of_earlier hx hlt]

end Timed

/-- Settles O2: an empty queue ticks, and a timed event finds its time not reached while an earlier one is waited for. -/
theorem timePassesInOrder : Obligations.TimePassesInOrder := by
  refine ⟨fun s hp => ?_, fun s x hx hr => ⟨fun n h => exec_holdExpiry_early hr hx h,
    fun w n t ht hlt => exec_revokeDeadline_early hr hx ht hlt, fun t ht hlt => exec_pacingEnd_early hr hx ht hlt⟩⟩
  rw [step_of_idle hp]
  refine ⟨fun hr h => ?_, fun hr h => ?_, fun hr => ?_⟩
  · rw [tick_of_ahead hr h]
  · rw [tick_of_standing (.inr h)]
  · rw [tick_of_standing (.inl hr)]

end Sys2Proof.Machine
end

section
/-! SUPPORT. What the lookups of a replay pass see, and that no pass changes it; the pass cut at an entry of its queue
(R99). -/

namespace Sys2Proof.Machine

/-! ### What a lookup sees -/

/-- What lookups, rights, window states and routes are judged by: the windows without their counts, the node maps and the
job slots. -/
structure Sight where
  shapes : WindowId → Byte × Option Live
  maps : Vector (List WindowId) 4
  slots : Vector Slot 4

/-- What the lookups of a state see. -/
def State.sight (s : State) : Sight := { shapes := s.shape, maps := s.maps, slots := s.slots }

/-- A map entry without its counts. -/
def MapEntry.shape (m : MapEntry) : MapEntry := { m with live := m.live.shape, grant := m.grant.shape }

theorem sight_of_requests {s t : State} (hs : ∀ w, t.shape w = s.shape w) (hr : t.beyondRequests = s.beyondRequests) :
    t.sight = s.sight := by
  have hslots : t.slots = s.slots := (congrArg State.slots hr :)
  simp only [State.sight, funext hs, maps_of_requests hr, hslots]

theorem sight_of_answers {s t : State} (hs : ∀ w, t.shape w = s.shape w) (ha : t.beyondAnswers = s.beyondAnswers) :
    t.sight = s.sight := sight_of_requests hs (beyondRequests_of_answers ha)

section SameSight

variable {s t : State} (h : t.sight = s.sight)
include h

theorem shape_of_sight (w : WindowId) : t.shape w = s.shape w := congrFun (congrArg Sight.shapes h) w

theorem map_of_sight (n : NodeId) : t.map n = s.map n := congrArg (fun v : Sight => Table.get v.maps n) h

theorem slot_of_sight : t.slot = s.slot := funext fun j => congrArg (fun v : Sight => Table.get v.slots j) h

/-- The entry of a node for a window is the same but for its counts. -/
theorem mapEntry_of_sight (n : NodeId) (w : WindowId) :
    (t.mapEntry n w).map MapEntry.shape = (s.mapEntry n w).map MapEntry.shape := by
  have hshape : ∀ u : State, (u.mapEntry n w).map MapEntry.shape =
      (u.shape w).2.bind fun v => (v.grant n).map fun g => ⟨w, v, g⟩ := by
    intro u
    simp only [State.mapEntry, State.grant, State.shape]
    cases (u.window w).life with
    | none => rfl
    | some v =>
      simp only [Option.map_some, Option.bind_some, grant_shape]
      cases v.grant n <;> rfl
  rw [hshape, hshape, shape_of_sight h]

/-- A lookup finds the same entry but for its counts. -/
theorem entryAt_of_sight (n : NodeId) (addr : Nat) :
    (t.entryAt n addr).map MapEntry.shape = (s.entryAt n addr).map MapEntry.shape := by
  have hshape : ∀ u : State, (u.entryAt n addr).map MapEntry.shape =
      ((u.map n).filterMap fun w => (u.mapEntry n w).map MapEntry.shape).find? fun m => m.holds addr := by
    intro u
    rw [← List.map_filterMap, List.find?_map]
    rfl
  rw [hshape, hshape, map_of_sight h]
  simp only [mapEntry_of_sight h]

/-- A lookup whose entry is known finds that entry in the other state, but for its counts. -/
theorem entryAt_some_of_sight {n : NodeId} {addr : Nat} {m : MapEntry} (hm : s.entryAt n addr = some m) :
    ∃ m', t.entryAt n addr = some m' ∧ m'.shape = m.shape := by
  have hshape := entryAt_of_sight h n addr
  rw [hm] at hshape
  exact Option.map_eq_some_iff.1 hshape

/-- The checks from lookup to window state decide the same (R81, R82). -/
theorem verdict_of_sight (n : NodeId) (k : Kind) (addr len : Nat) (earlier : List HoldEntry) :
    t.verdict n k addr len earlier = s.verdict n k addr len earlier := by
  have hwindow : ∀ (m : MapEntry) (offset : Nat),
      t.windowVerdict k m offset earlier = s.windowVerdict k m offset earlier := by
    intro m offset
    unfold State.windowVerdict State.meetsCopy
    rw [slot_of_sight h]
  have hshape : ∀ u : State, u.verdict n k addr len earlier =
      match (u.entryAt n addr).map MapEntry.shape with
      | none => .fault .noWindow
      | some m =>
        if m.grant.base + m.live.bytes < addr + len then .fault .badRequest
        else if m.grant.rights.pass k then u.windowVerdict k m (addr - m.grant.base) earlier
        else .fault .rights := by
    intro u
    unfold State.verdict
    cases u.entryAt n addr <;> rfl
  rw [hshape, hshape, entryAt_of_sight h]
  simp only [hwindow]

/-- A pass faults a request with the same reason (R99). -/
theorem replayFault_of_sight (n : NodeId) (x : TagEntry) : t.replayFault n x = s.replayFault n x := by
  have hshape : ∀ u : State, u.replayFault n x =
      match (u.entryAt n x.addr).map MapEntry.shape with
      | none => some .noWindow
      | some m =>
        if x.kind = .write ∧ m.grant.rights = .read then some .rights
        else if m.live.state = .retiring then some .windowRetired
        else none := by
    intro u
    unfold State.replayFault
    cases u.entryAt n x.addr <;> rfl
  rw [hshape, hshape, entryAt_of_sight h]

/-- The routes of a window are the same, whatever its counts (R139). -/
theorem route_of_sight {v u : Live} (hv : v.shape = u.shape) (k : Kind) (chunk : Nat) :
    t.route v k chunk = s.route u k chunk := by
  have hroute : t.route v k chunk = s.route v.shape k chunk := by
    unfold State.route
    rw [slot_of_sight h]
    rfl
  rw [hroute, hv]
  rfl

end SameSight

/-! ### What leaves the sight as it was -/

section Sights

variable (s : State)

theorem setTag_sight (n : NodeId) (u : Tag) (x : Option TagEntry) : (s.setTag n u x).sight = s.sight := rfl

theorem faultEntry_sight (n : NodeId) (r : FaultReason) (e : HoldEntry) : (s.faultEntry n r e).sight = s.sight :=
  sight_of_answers (shape_faultEntry s n r e) (faultEntry_answers ..)

theorem lowerHeld_sight (w : WindowId) (n : NodeId) : (s.lowerHeld w n).sight = s.sight :=
  sight_of_answers (fun x => shape_lowerHeld s w x n) (lowerHeld_answers ..)

theorem executeEntry_sight (n : NodeId) (e : HoldEntry) (q : Request) (f : Matched) :
    ((s.lowerHeld e.window n).beginExecution n e.tag q f).sight = s.sight :=
  (sight_of_requests (shape_beginExecution _ n e.tag q f) (beginExecution_requests ..)).trans (lowerHeld_sight ..)

theorem replayEntries_sight (n : NodeId) (rest kept : List HoldEntry) :
    (replayEntries n kept rest s).state.sight = s.sight :=
  sight_of_requests (shape_replayEntries n rest kept s) (replayEntries_requests ..)

end Sights

/-! ### The tags of the entries dealt with -/

/-- An execution that a verdict allows gives its tag a record's name and leaves every other tag alone (R84). -/
theorem tag_executeEntry {s : State} {n : NodeId} {k : Kind} {addr len : Nat} {earlier : List HoldEntry} {f : Matched}
    (hv : s.verdict n k addr len earlier = .execute f) (e : HoldEntry) (q : Request) (m : NodeId) (u : Tag) :
    ((s.lowerHeld e.window n).beginExecution n e.tag q f).tag m u =
      if n = m ∧ e.tag = u then some (q.executingEntry f s.nextTransaction) else s.tag m u := by
  rw [← verdict_of_sight (lowerHeld_sight s e.window n)] at hv
  obtain ⟨v, hlife⟩ := life_of_verdict hv
  rw [tag_beginExecution hlife, nextTransaction_of_register (lowerHeld_register ..),
    tag_of_register (lowerHeld_register ..)]

/-! ### A pass cut in two -/

/-- A pass over the first entries of a queue ends with some of them held again and some state, and goes on from there
with the rest (R99). -/
theorem replayEntries_append (n : NodeId) (below kept : List HoldEntry) (s : State) :
    ∃ (kept' : List HoldEntry) (s' : State),
      (∀ rest, (replayEntries n kept (below ++ rest) s).state = (replayEntries n kept' rest s').state) ∧
        (replayEntries n kept below s).state = s'.setHold n kept' := by
  suffices hcut : ∃ (kept' : List HoldEntry) (s' : State),
      ∀ rest, (replayEntries n kept (below ++ rest) s).state = (replayEntries n kept' rest s').state by
    obtain ⟨kept', s', hcut⟩ := hcut
    refine ⟨kept', s', hcut, ?_⟩
    simpa [replayEntries] using hcut []
  induction below generalizing kept s with
  | nil => exact ⟨kept, s, fun _ => rfl⟩
  | cons e below ih =>
    cases hx : s.tag n e.tag with
    | none =>
      obtain ⟨kept', s', hcut⟩ := ih (kept ++ [e]) s
      exact ⟨kept', s', fun rest => by simp only [List.cons_append, replayEntries, hx, hcut]⟩
    | some x =>
      cases hv : s.verdict n x.kind x.addr x.len kept with
      | hold f c =>
        obtain ⟨kept', s', hcut⟩ := ih (kept ++ [{ e with cause := c }]) (s.setTag n e.tag (some { x with toMatched := f }))
        exact ⟨kept', s', fun rest => by simp only [List.cons_append, replayEntries, hx, hv, hcut]⟩
      | fault r =>
        obtain ⟨kept', s', hcut⟩ := ih kept ((s.lowerHeld e.window n).faultTag n e.tag r)
        exact ⟨kept', s', fun rest => by simp only [List.cons_append, replayEntries, hx, hv, hcut]⟩
      | execute f =>
        obtain ⟨kept', s', hcut⟩ := ih kept
          ((s.lowerHeld e.window n).beginExecution n e.tag ⟨x.kind, x.addr, x.len, x.data.getD []⟩ f)
        exact ⟨kept', s', fun rest => by simp only [List.cons_append, replayEntries, hx, hv, hcut]⟩

end Sys2Proof.Machine
end

section
/-! SUPPORT. The replay pass: the answers it owes, and what becomes of each entry of its queue (R99, R91, R101). -/

namespace Sys2Proof.Machine

/-! ### The fault of an entry -/

section Faulted

variable {s : State} {n : NodeId}

theorem faultEntry_of_tag {e : HoldEntry} {x : TagEntry} (hx : s.tag n e.tag = some x) (r : FaultReason) :
    s.faultEntry n r e = ((s.lowerHeld e.window n).setTag n e.tag none).sendFault n ⟨e.tag, x.kind, x.addr, r⟩ := by
  have hlow : (s.lowerHeld e.window n).tag n e.tag = some x := (updateLive_tag ..).trans hx
  simp only [State.faultEntry, State.faultTag, hlow]

/-- A faulted entry of a node that is not DOWN is answered at the tail of its node's queue; no other port changes (R91,
R58). -/
theorem port_faultEntry (hup : s.link n ≠ .down) {e : HoldEntry} {x : TagEntry} (hx : s.tag n e.tag = some x)
    (r : FaultReason) :
    (s.faultEntry n r e).port = Function.update s.port n
      { s.port n with outbound := (s.port n).outbound ++ [.completion e.tag (.fault r)] } := by
  have hlow : ((s.lowerHeld e.window n).setTag n e.tag none).port = s.port := funext (updateLive_port s _ _)
  have hlink : ((s.lowerHeld e.window n).setTag n e.tag none).link n ≠ .down := by
    rw [State.link, hlow]
    exact hup
  rw [faultEntry_of_tag hx, State.sendFault, port_captureFault]
  funext m
  rw [port_send, hlow]
  by_cases hm : m = n
  · subst hm
    rw [if_pos ⟨rfl, hlink⟩, Function.update_self]
  · rw [if_neg fun hc => hm hc.1.symm, Function.update_of_ne hm]

theorem port_executeEntry (e : HoldEntry) (q : Request) (f : Matched) :
    ((s.lowerHeld e.window n).beginExecution n e.tag q f).port = s.port := by
  have hlow : (s.lowerHeld e.window n).port = s.port := funext fun m => updateLive_port ..
  rw [← hlow]
  cases hv : ((s.lowerHeld e.window n).window f.window).life with
  | none => rw [beginExecution_of_free hv]
  | some v =>
    rw [beginExecution_frame hv]
    rfl

end Faulted

/-! ### What a pass decides -/

/-- The last byte of a request lies in the range its lookup finds, if it finds one (R81). -/
def State.endsInRange (s : State) (n : NodeId) (x : TagEntry) : Prop :=
  ∀ m, s.entryAt n x.addr = some m → x.addr + x.len ≤ m.grant.base + m.live.bytes

theorem endsInRange_of_sight {s t : State} (h : t.sight = s.sight) {n : NodeId} {x : TagEntry}
    (hfit : s.endsInRange n x) : t.endsInRange n x := by
  intro m hm
  obtain ⟨m', hm', hshape⟩ := entryAt_some_of_sight h.symm hm
  have hbase : m'.grant.base = m.grant.base := (congrArg (fun y : MapEntry => y.grant.base) hshape :)
  have hbytes : m'.live.bytes = m.live.bytes := (congrArg (fun y : MapEntry => y.live.bytes) hshape :)
  rw [← hbase, ← hbytes]
  exact hfit m' hm'

section Decided

variable {s : State} {n : NodeId} {x : TagEntry} (hfit : s.endsInRange n x)
include hfit

/-- A request whose lookup and rights pass under a window that is not RETIRING is judged by the window's state (R99
steps 1 to 3). -/
theorem verdict_of_replayFault_none {m : MapEntry} (hm : s.entryAt n x.addr = some m) (hf : s.replayFault n x = none)
    (earlier : List HoldEntry) :
    s.verdict n x.kind x.addr x.len earlier = s.windowVerdict x.kind m (x.addr - m.grant.base) earlier ∧
      m.live.state ≠ .retiring := by
  simp only [State.replayFault, hm] at hf
  split_ifs at hf with hr hst
  refine ⟨?_, hst⟩
  rw [verdict_of_fits hm (hfit m hm), if_pos]
  rw [pass_iff]
  cases hk : x.kind with
  | read => exact .inl rfl
  | write =>
    cases hg : m.grant.rights with
    | readWrite => exact .inr rfl
    | read => exact absurd ⟨hk, hg⟩ hr

/-- A pass faults exactly the requests whose lookup, rights or window state fail, whatever stands before them (R99 steps
1 to 3). -/
theorem verdict_fault_iff (earlier : List HoldEntry) (r : FaultReason) :
    s.verdict n x.kind x.addr x.len earlier = .fault r ↔ s.replayFault n x = some r := by
  cases hm : s.entryAt n x.addr with
  | none => simp [verdict_of_none hm, State.replayFault, hm]
  | some m =>
    cases hf : s.replayFault n x with
    | none =>
      obtain ⟨hv, hst⟩ := verdict_of_replayFault_none hfit hm hf earlier
      rw [hv, State.windowVerdict, if_neg hst]
      split_ifs <;> simp
    | some r' =>
      have hv : s.verdict n x.kind x.addr x.len earlier = .fault r' := by
        rw [verdict_of_fits hm (hfit m hm)]
        simp only [State.replayFault, hm] at hf
        split_ifs at hf with hr hst
        · obtain rfl := Option.some.inj hf
          simp [Rights.pass, hr.1, hr.2]
        · obtain rfl := Option.some.inj hf
          have hpass : m.grant.rights.pass x.kind = true := by
            rw [pass_iff]
            cases hk : x.kind <;> cases hg : m.grant.rights <;> simp_all
          rw [if_pos hpass, windowVerdict_retiring hst]
      simp [hv]

end Decided

/-! ### The answers a pass owes -/

/-- The completion a pass owes an entry, if it faults it (R99, R91). -/
def State.owed (s : State) (n : NodeId) (e : HoldEntry) : Option Message :=
  (s.tag n e.tag).bind fun x => (s.replayFault n x).map fun r => .completion e.tag (.fault r)

theorem replayAnswers_eq (s : State) (n : NodeId) : s.replayAnswers n = (s.hold n).filterMap (s.owed n) := by
  unfold State.replayAnswers State.owed
  congr 1
  funext e
  cases s.tag n e.tag <;> rfl

theorem owed_of_sight {s t : State} (h : t.sight = s.sight) {n : NodeId} {e : HoldEntry}
    (ht : t.tag n e.tag = s.tag n e.tag) : t.owed n e = s.owed n e := by
  rw [State.owed, State.owed, ht, funext (replayFault_of_sight h n)]

/-- The faults' completions go out in queue order, and no other port changes (R99, R91). -/
theorem port_replayEntries {n : NodeId} (rest kept : List HoldEntry) {s : State} (hup : s.link n ≠ .down)
    (honce : (rest.map fun e => e.tag).Nodup)
    (hfit : ∀ e ∈ rest, ∃ x, s.tag n e.tag = some x ∧ s.endsInRange n x) :
    (replayEntries n kept rest s).state.port = Function.update s.port n
      { s.port n with outbound := (s.port n).outbound ++ rest.filterMap (s.owed n) } := by
  induction rest generalizing kept s with
  | nil => simp [replayEntries, funext (setHold_port s n kept)]
  | cons e rest ih =>
    obtain ⟨hne, honce⟩ := List.nodup_cons.1 honce
    obtain ⟨x, hx, hrange⟩ := hfit e (List.mem_cons_self ..)
    have hnext : ∀ {s' : State} (kept' : List HoldEntry), s'.sight = s.sight → s'.link n ≠ .down →
        (∀ u, u ≠ e.tag → s'.tag n u = s.tag n u) →
        (replayEntries n kept' rest s').state.port = Function.update s'.port n
          { s'.port n with outbound := (s'.port n).outbound ++ rest.filterMap (s.owed n) } := by
      intro s' kept' hsight hup' htag
      have htags : ∀ e' ∈ rest, s'.tag n e'.tag = s.tag n e'.tag :=
        fun e' he => htag e'.tag fun hc => hne (List.mem_map.2 ⟨e', he, hc⟩)
      rw [ih kept' hup' honce, List.filterMap_congr fun e' he => owed_of_sight hsight (htags e' he)]
      intro e' he
      obtain ⟨x', hx', hrange'⟩ := hfit e' (List.mem_cons_of_mem _ he)
      exact ⟨x', (htags e' he).trans hx', endsInRange_of_sight hsight hrange'⟩
    have howed : s.owed n e = (s.replayFault n x).map fun r => .completion e.tag (.fault r) := by
      rw [State.owed, hx, Option.bind_some]
    simp only [replayEntries, hx]
    cases hv : s.verdict n x.kind x.addr x.len kept with
    | fault r =>
      rw [(verdict_fault_iff hrange kept r).1 hv] at howed
      have hport := port_faultEntry hup hx r
      have hup' : (s.faultEntry n r e).link n ≠ .down := by
        rw [State.link, hport, Function.update_self]
        exact hup
      refine (hnext kept (faultEntry_sight s n r e) hup' fun u hu => ?_).trans ?_
      · rw [tag_faultEntry, if_neg fun hc => hu hc.2.symm]
      · simp [hport, howed]
    | hold f c =>
      have hnone : s.replayFault n x = none := by
        cases hf : s.replayFault n x with
        | none => rfl
        | some r => simp [(verdict_fault_iff hrange kept r).2 hf] at hv
      rw [hnone] at howed
      refine (hnext (s' := s.setTag n e.tag _) (kept ++ [{ e with cause := c }]) rfl hup fun u hu => ?_).trans ?_
      · rw [tag_setTag, if_neg fun hc => hu hc.2.symm]
      · simp [howed, funext (setTag_port s n e.tag _)]
    | execute f =>
      have hnone : s.replayFault n x = none := by
        cases hf : s.replayFault n x with
        | none => rfl
        | some r => simp [(verdict_fault_iff hrange kept r).2 hf] at hv
      rw [hnone] at howed
      have hport := port_executeEntry (s := s) (n := n) e ⟨x.kind, x.addr, x.len, x.data.getD []⟩ f
      refine (hnext kept (executeEntry_sight ..) ?_ fun u hu => ?_).trans ?_
      · rw [State.link, hport]
        exact hup
      · rw [tag_executeEntry hv, if_neg fun hc => hu hc.2.symm]
      · simp [hport, howed]

end Sys2Proof.Machine
end

section
/-! SUPPORT. What a replay pass makes of one entry of its queue (R99). -/

namespace Sys2Proof.Machine

/-! ### Tags along a pass -/

/-- Entries held again have the tags they had. -/
theorem tags_of_lasting {l q : List HoldEntry} (h : (l.map HoldEntry.lasting).Sublist (q.map HoldEntry.lasting)) :
    (l.map fun e => e.tag).Sublist (q.map fun e => e.tag) := by
  have htags := h.map Prod.fst
  rwa [List.map_map, List.map_map] at htags

theorem exists_tag_of_lasting {l q : List HoldEntry} (h : (l.map HoldEntry.lasting).Sublist (q.map HoldEntry.lasting))
    {e : HoldEntry} (he : e ∈ l) : e.tag ∈ q.map fun e => e.tag :=
  (tags_of_lasting h).subset (List.mem_map_of_mem he)

theorem hold_subset_replayEntries (n : NodeId) (rest kept : List HoldEntry) (s : State) :
    kept ⊆ (replayEntries n kept rest s).state.hold n := by
  obtain ⟨⟨again, hhold, -⟩, -⟩ := hold_replayEntries s n rest kept
  rw [hhold]
  exact List.subset_append_left ..

/-! ### Operations in progress -/

theorem channels_faultEntry (s : State) (n : NodeId) (r : FaultReason) (e : HoldEntry) :
    (s.faultEntry n r e).channels = s.channels := channels_of_answers (faultEntry_answers ..)

theorem channel_beginExecution_subset (s : State) (n : NodeId) (u : Tag) (q : Request) (f : Matched) (c : ChannelId) :
    s.channel c ⊆ (s.beginExecution n u q f).channel c := by
  cases hv : (s.window f.window).life with
  | none =>
    rw [beginExecution_of_free hv]
    exact List.Subset.refl _
  | some v =>
    have hchannel : (s.beginExecution n u q f).channel c = (s.issuedFor v n u q f).channel c := by
      rw [beginExecution_frame hv]
      rfl
    rw [hchannel, channel_issuedFor]
    exact List.subset_append_left ..

theorem channel_lowerHeld (s : State) (w : WindowId) (n : NodeId) (c : ChannelId) :
    (s.lowerHeld w n).channel c = s.channel c :=
  congrArg (fun x => Table.get x c) (channels_of_answers (lowerHeld_answers s w n))

/-- A pass only adds operations to the channels (R84, R99). -/
theorem channel_replayEntries_subset (n : NodeId) (rest kept : List HoldEntry) (s : State) (c : ChannelId) :
    s.channel c ⊆ (replayEntries n kept rest s).state.channel c := by
  induction rest generalizing kept s with
  | nil => exact List.Subset.refl _
  | cons e rest ih =>
    simp only [replayEntries]
    split
    · exact ih _ s
    · split
      · exact ih _ (s.setTag n e.tag _)
      · rename_i r _
        have hsame : (s.faultEntry n r e).channel c = s.channel c :=
          congrArg (fun x => Table.get x c) (channels_faultEntry s n r e)
        exact hsame ▸ ih kept (s.faultEntry n r e)
      · refine List.Subset.trans ?_ (ih ..)
        rw [← channel_lowerHeld s e.window n]
        exact channel_beginExecution_subset ..

/-! ### The execution of an entry -/

/-- A request that begins execution under a window whose counts alone may have changed since the lookup found it: its
record, its operations and its tag (R76, R84). -/
theorem executeEntry_leaves {s s' : State} (hsight : s'.sight = s.sight) {n : NodeId} {addr : Nat} {m : MapEntry}
    (hm : s.entryAt n addr = some m) (e : HoldEntry) (q : Request) (offset : Nat) :
    ∃ y ∈ ((s'.lowerHeld e.window n).beginExecution n e.tag q (m.found offset)).transactions,
      y.node = n ∧ y.tag = some e.tag ∧ y.kind = q.kind ∧ y.window = m.window ∧ y.chunk = offset / 4096 ∧
      y.ops = (s.route m.live q.kind (offset / 4096)).ops q offset ∧
      ((s'.lowerHeld e.window n).beginExecution n e.tag q (m.found offset)).tag n e.tag =
        some (q.executingEntry (m.found offset) y.id) ∧
      ∀ o ∈ y.ops, ∀ c : ChannelId, c.val = o.addr / 4096 % 4 →
        ⟨q.kind, o.addr, q.len, q.data, .transaction y.id o.role⟩ ∈
          ((s'.lowerHeld e.window n).beginExecution n e.tag q (m.found offset)).channel c := by
  have hlow : (s'.lowerHeld e.window n).sight = s.sight := (lowerHeld_sight ..).trans hsight
  obtain ⟨m', hm', hshape⟩ := entryAt_some_of_sight hlow hm
  have hwindow : m'.window = m.window := (congrArg MapEntry.window hshape :)
  have hlive : m'.live.shape = m.live.shape := (congrArg MapEntry.live hshape :)
  generalize s'.lowerHeld e.window n = a at *
  have hlife : (a.window (m.found offset).window).life = some m'.live := by
    rw [MapEntry.found, ← hwindow]
    exact (grant_eq_some_iff.1 (grant_of_entryAt hm')).1
  have hframe := beginExecution_frame (n := n) (u := e.tag) (q := q) hlife
  have hroute : a.route m'.live q.kind (offset / 4096) = s.route m.live q.kind (offset / 4096) :=
    route_of_sight hlow hlive ..
  refine ⟨a.newRecord m'.live n e.tag q (m.found offset), ?_, rfl, rfl, rfl, rfl, rfl, ?_, ?_, fun o ho c hc => ?_⟩
  · rw [hframe]
    exact List.mem_append_right _ (List.mem_singleton_self _)
  · exact congrArg (fun r : Route => r.ops q offset) hroute
  · exact (tag_beginExecution hlife ..).trans (if_pos ⟨rfl, rfl⟩)
  · have hchannel : (a.beginExecution n e.tag q (m.found offset)).channel c =
        (a.issuedFor m'.live n e.tag q (m.found offset)).channel c := by
      rw [hframe]
      rfl
    rw [hchannel, channel_issuedFor]
    refine List.mem_append_right _ (List.mem_map.2 ⟨o, List.mem_filter.2 ⟨ho, ?_⟩, rfl⟩)
    simpa using hc.symm

/-! ### One entry of a queue -/

section OneEntry

variable {s : State} {n : NodeId} {below above : List HoldEntry} {e : HoldEntry} {x : TagEntry}

/-- The pass has dealt with the entries `below`, of which it has held `kept` again, and comes to `e` in the state `u`, in
which lookups see what they saw and the tag of `e` is as it was (R99). -/
structure State.ComesTo (s : State) (n : NodeId) (below : List HoldEntry) (e : HoldEntry) (above kept : List HoldEntry)
    (u : State) : Prop where
  rest : (s.replay n).state = (replayEntries n kept (e :: above) u).state
  sight : u.sight = s.sight
  tag : u.tag n e.tag = s.tag n e.tag
  kept : (kept.map HoldEntry.lasting).Sublist (below.map HoldEntry.lasting)

theorem exists_comesTo (ha : s.TagsAgree) (hq : s.hold n = below ++ e :: above) :
    ∃ kept u, s.ComesTo n below e above kept u := by
  obtain ⟨kept, u, hcut, hbelow⟩ := replayEntries_append n below [] s
  have hne : e.tag ∉ below.map fun e => e.tag := by
    have honce := ha.heldOnce n
    rw [hq, List.map_append, List.map_cons] at honce
    exact fun hc => (List.nodup_append.1 honce).2.2 _ hc _ (List.mem_cons_self ..) rfl
  obtain ⟨⟨again, hhold, hsub⟩, -⟩ := hold_replayEntries s n below []
  rw [hbelow, hold_setHold, if_pos rfl, List.nil_append] at hhold
  refine ⟨kept, u, ?_, ?_, ?_, hhold ▸ hsub⟩
  · rw [State.replay, hq, hcut]
  · have hsight := replayEntries_sight s n below []
    rwa [hbelow] at hsight
  · have htag := tag_replayEntries n below [] s (m := n) (u := e.tag) fun _ => hne
    rwa [hbelow, setHold_tag] at htag

variable (ha : s.TagsAgree) (hq : s.hold n = below ++ e :: above) {kept : List HoldEntry} {u : State}
  (hc : s.ComesTo n below e above kept u)

include ha hq in
/-- The tags of a queue with `e` in it: those below and above are not its own, nor each other's (R96). -/
theorem tags_around :
    e.tag ∉ (below.map fun e => e.tag) ∧ e.tag ∉ (above.map fun e => e.tag) ∧
      ∀ b ∈ below.map fun e => e.tag, b ∉ (e :: above).map fun e => e.tag := by
  have honce := ha.heldOnce n
  rw [hq, List.map_append] at honce
  obtain ⟨-, habove, hdisjoint⟩ := List.nodup_append.1 honce
  exact ⟨fun hb => hdisjoint _ hb _ (List.mem_cons_self ..) rfl, (List.nodup_cons.1 habove).1,
    fun b hb hb' => hdisjoint b hb b hb' rfl⟩

include ha hq hc in
/-- The entries that stand before `e` when the pass comes to it are those of the queue's front that the pass leaves held
(R99, R101). -/
theorem kept_iff {P : HoldEntry → Prop} :
    (∃ h ∈ (s.replay n).state.hold n, P h ∧ ∃ b ∈ below, b.tag = h.tag) ↔ ∃ h ∈ kept, P h := by
  obtain ⟨⟨again, hhold, hsub⟩, -⟩ := hold_replayEntries u n (e :: above) kept
  rw [hc.rest, hhold]
  constructor
  · rintro ⟨h, hh, hP, b, hb, hbh⟩
    rcases List.mem_append.1 hh with hh | hh
    · exact ⟨h, hh, hP⟩
    · have habove := exists_tag_of_lasting hsub hh
      exact absurd habove ((tags_around ha hq).2.2 h.tag (hbh ▸ List.mem_map_of_mem hb))
  · rintro ⟨h, hh, hP⟩
    obtain ⟨b, hb, hbh⟩ := List.mem_map.1 (exists_tag_of_lasting hc.kept hh)
    exact ⟨h, List.mem_append_left _ hh, hP, b, hb, hbh⟩

include ha hq hc in
/-- An entry that is not held again leaves the queue, and the rest of the pass leaves its tag as it is. -/
theorem leaves_queue {a : State} (hrest : (s.replay n).state = (replayEntries n kept above a).state) :
    (∀ h ∈ (s.replay n).state.hold n, h.tag ≠ e.tag) ∧ (s.replay n).state.tag n e.tag = a.tag n e.tag := by
  obtain ⟨hbelow, habove, -⟩ := tags_around ha hq
  obtain ⟨⟨again, hhold, hsub⟩, -⟩ := hold_replayEntries a n above kept
  rw [hrest]
  refine ⟨fun h hh heq => ?_, tag_replayEntries n above kept a fun _ => habove⟩
  rw [hhold] at hh
  rcases List.mem_append.1 hh with hh | hh
  · exact hbelow (heq ▸ exists_tag_of_lasting hc.kept hh)
  · exact habove (heq ▸ exists_tag_of_lasting hsub hh)

variable (hx : s.tag n e.tag = some x)
include hc hx

theorem rest_of_fault {r : FaultReason} (hv : s.verdict n x.kind x.addr x.len kept = .fault r) :
    (s.replay n).state = (replayEntries n kept above (u.faultEntry n r e)).state := by
  rw [← verdict_of_sight hc.sight] at hv
  rw [hc.rest]
  simp only [replayEntries, hc.tag.trans hx, hv]
  rfl

theorem rest_of_execute {f : Matched} (hv : s.verdict n x.kind x.addr x.len kept = .execute f) :
    (s.replay n).state = (replayEntries n kept above
      ((u.lowerHeld e.window n).beginExecution n e.tag ⟨x.kind, x.addr, x.len, x.data.getD []⟩ f)).state := by
  rw [← verdict_of_sight hc.sight] at hv
  rw [hc.rest]
  simp only [replayEntries, hc.tag.trans hx, hv]

/-- A request that is held again keeps its place, its expiry time and its window, with the cause just found (R99). -/
theorem held_again {f : Matched} {c : Cause} (hv : s.verdict n x.kind x.addr x.len kept = .hold f c) :
    { e with cause := c } ∈ (s.replay n).state.hold n := by
  rw [← verdict_of_sight hc.sight] at hv
  rw [hc.rest]
  simp only [replayEntries, hc.tag.trans hx, hv]
  exact hold_subset_replayEntries _ _ _ _ (List.mem_append_right _ (List.mem_singleton_self _))

include ha hq in
/-- A request that a pass faults is free of its tag and of its queue (R91, R99). -/
theorem faulted_leaves {r : FaultReason} (hv : s.verdict n x.kind x.addr x.len kept = .fault r) :
    (s.replay n).state.tag n e.tag = none ∧ ∀ h ∈ (s.replay n).state.hold n, h.tag ≠ e.tag := by
  obtain ⟨hout, htag⟩ := leaves_queue ha hq hc (rest_of_fault hc hx hv)
  rw [tag_faultEntry, if_pos ⟨rfl, rfl⟩] at htag
  exact ⟨htag, hout⟩

include ha hq in
/-- A request that begins execution in a pass leaves the queue; its record, operations and tag stand when the pass ends
(R84, R99). -/
theorem executed_leaves {m : MapEntry} (hm : s.entryAt n x.addr = some m) {offset : Nat}
    (hv : s.verdict n x.kind x.addr x.len kept = .execute (m.found offset)) :
    (∀ h ∈ (s.replay n).state.hold n, h.tag ≠ e.tag) ∧
      ∃ y ∈ (s.replay n).state.transactions, y.node = n ∧ y.tag = some e.tag ∧ y.kind = x.kind ∧ y.window = m.window ∧
        y.chunk = offset / 4096 ∧
        y.ops = (s.route m.live x.kind (offset / 4096)).extents.map (fun a =>
          (⟨a.1, a.2.base * 2097152 + offset, x.len, .pending⟩ : TransactionOp)) ∧
        (∃ z, (s.replay n).state.tag n e.tag = some z ∧ z.phase = .executing y.id ∧ z.data = none) ∧
        ∀ o ∈ y.ops, ∀ c : ChannelId, c.val = o.addr / 4096 % 4 →
          ⟨x.kind, o.addr, x.len, x.data.getD [], .transaction y.id o.role⟩ ∈ (s.replay n).state.channel c := by
  have hrest := rest_of_execute hc hx hv
  obtain ⟨hout, htag⟩ := leaves_queue ha hq hc hrest
  obtain ⟨y, hy, hnode, hytag, hkind, hwindow, hchunk, hops, hz, hissued⟩ :=
    executeEntry_leaves hc.sight hm e ⟨x.kind, x.addr, x.len, x.data.getD []⟩ offset
  refine ⟨hout, y, ?_, hnode, hytag, hkind, hwindow, hchunk, hops, ⟨_, htag.trans hz, rfl, rfl⟩, fun o ho c hoc => ?_⟩
  · rw [hrest]
    exact transactions_replayEntries _ _ _ _ hy
  · rw [hrest]
    exact channel_replayEntries_subset _ _ _ _ _ (hissued o ho c hoc)

end OneEntry

/-! ### The window's state (R82) -/

/-- A window that is neither RETIRING nor SUSPENDED, and whose chunk is not under copy for the request, lets it pass. -/
theorem letsPass_of_not {s : State} {st : LiveState} {k : Kind} {chunk : Nat} (hr : st ≠ .retiring)
    (hs : st ≠ .suspended)
    (hcopy : ¬∃ j job, st = .migrating j ∧ k = .write ∧ s.slot j = .copying job true ∧ job.cursor = chunk * 4096) :
    s.letsPass st k chunk := by
  cases st with
  | active => exact .inl rfl
  | suspended => exact absurd rfl hs
  | retiring => exact absurd rfl hr
  | migrating j =>
    refine .inr ⟨j, rfl, ?_⟩
    cases k with
    | read => exact .inl rfl
    | write =>
      right
      cases hslot : s.slot j with
      | copying job mark =>
        cases mark with
        | false => exact .inl rfl
        | true =>
          refine .inr fun job' hjob hcursor => hcopy ⟨j, job, rfl, rfl, hslot, ?_⟩
          obtain rfl : job = job' := Option.some.inj hjob
          exact hcursor
      | _ => exact .inl rfl

/-- What a pass does beyond requests: nothing (R99). -/
theorem replay_frame (s : State) (n : NodeId) :
    (s.replay n).state =
      { s with
        windows := (s.replay n).state.windows
        ports := (s.replay n).state.ports
        tags := (s.replay n).state.tags
        transactions := (s.replay n).state.transactions
        nextTransaction := (s.replay n).state.nextTransaction
        captures := (s.replay n).state.captures
        holds := (s.replay n).state.holds
        channels := (s.replay n).state.channels
        attention := (s.replay n).state.attention } := by
  have h := replay_requests s n
  generalize (s.replay n).state = t at h
  simp only [State.beyondRequests, State.beyondAnswers, State.mk.injEq] at h
  cases t
  simp_all

/-- Settles O39: the pass is cut at the entry; the verdict there is that of the records as lookups see them throughout,
and what the rest of the pass does leaves the entry's fate as it is. -/
theorem replayPassEvaluates : Obligations.ReplayPassEvaluates := by
  intro s t n ha hl hrange ht
  subst ht
  have hup : s.link n ≠ .down := by simp [hl]
  have hfit : ∀ e ∈ s.hold n, ∃ x, s.tag n e.tag = some x ∧ s.endsInRange n x := by
    intro e he
    obtain ⟨x, hx, -⟩ := ha.heldTag n e he
    exact ⟨x, hx, fun m hm => hrange e he x m hx hm⟩
  have hport : (s.replay n).state.port = _ := port_replayEntries (s.hold n) [] hup (ha.heldOnce n) hfit
  refine ⟨replay_frame s n, ?_, fun a han => ?_, fun below e above x hq hx => ?_⟩
  · rw [hport, Function.update_self, replayAnswers_eq]
  · rw [hport, Function.update_of_ne han]
  obtain ⟨kept, u, hc⟩ := exists_comesTo ha hq
  have hend : s.endsInRange n x := by
    obtain ⟨x', hx', hend⟩ := hfit e (by simp [hq])
    obtain rfl := Option.some.inj (hx'.symm.trans hx)
    exact hend
  refine ⟨fun r hf => faulted_leaves ha hq hc hx ((verdict_fault_iff hend kept r).2 hf),
    fun m offset copied blocked hm hf hoffset hcopied hblocked => ?_⟩
  obtain ⟨hverdict, hretiring⟩ := verdict_of_replayFault_none hend hm hf kept
  rw [← hoffset] at hverdict
  have hkept : blocked ↔ ∃ h ∈ kept, h.window = m.window ∧ h.chunk = offset / 4096 := by
    rw [hblocked, ← kept_iff ha hq hc]
    simp only [and_assoc]
  have hagain : ∀ {c : Cause}, s.holdsBack x.kind m (offset / 4096) kept c →
      { e with cause := c } ∈ (s.replay n).state.hold n :=
    fun hback => held_again hc hx (hverdict.trans (windowVerdict_hold hback))
  have hpass : m.live.state ≠ .suspended → ¬copied → s.letsPass m.live.state x.kind (offset / 4096) := by
    intro hs hcopy
    refine letsPass_of_not hretiring hs fun hj => hcopy (hcopied.2 ?_)
    exact hj
  refine ⟨fun hs => hagain (.inl ⟨hs, rfl⟩), fun hcopy => ?_, fun hs hcopy hb => ?_, fun hs hcopy hb => ?_⟩
  · obtain ⟨j, job, hj, hk, hslot, hcursor⟩ := hcopied.1 hcopy
    exact hagain (.inr (.inl ⟨j, job, hj, hk, hslot, hcursor, rfl⟩))
  · exact hagain (.inr (.inr ⟨hpass hs hcopy, hkept.1 hb, rfl⟩))
  · refine executed_leaves ha hq hc hx hm (hverdict.trans (windowVerdict_execute (hpass hs hcopy) fun h hh hw hch => ?_))
    exact hb (hkept.2 ⟨h, hh, hw, hch⟩)

end Sys2Proof.Machine
end

section
/-! SUPPORT. SUSPEND and RESUME: the completions, and the passes after which no entry of the window stays held (R108,
R110, R100). -/

namespace Sys2Proof.Machine

/-! ### SUSPEND (R108) -/

section Suspend

variable {s : State} {p : Vector Word 8} {w : WindowId} {v : Live} (h : s.completing .suspend p) (hn : s.names p w v)
  (hst : v.state = .active)
include h hn hst

/-- SUSPEND of an ACTIVE window reports its counts and whether QUIET was raised (R108, log 31). -/
theorem exec_suspend :
    exec .commandCompletion s = .next ((s.suspend w v).completed .done
      [slotOf v.executing, slotOf v.held, flagSlot (decide (v.executing = 0))]) := by
  refine commandCompletion_of_carriedOut h ?_
  have hpassed : s.windowCheck .suspend p = .passed w v := windowCheck_passed hn (by rw [hst]; rfl)
  simp only [complete, completeSuspend, hpassed]

theorem exec_suspend_executing (hx : 0 < v.executing) :
    exec .commandCompletion s = .next
      ((s.withLife w { v with state := .suspended, quietPending := true }).completed .done
        [slotOf v.executing, slotOf v.held, 0]) := by
  have hne : v.executing ≠ 0 := Nat.pos_iff_ne_zero.1 hx
  rw [exec_suspend h hn hst, State.suspend, if_neg hne, updateLive_of_life hn.2.1]
  simp [hx, hne, flagSlot]

theorem exec_suspend_quiet (hx : v.executing = 0) :
    exec .commandCompletion s = .next
      (((s.withLife w { v with state := .suspended, quietPending := false }).flagged (windowSource w) 0b000001).completed
        .done [0, slotOf v.held, 1]) := by
  rw [exec_suspend h hn hst, State.suspend, if_pos hx, updateLive_of_life hn.2.1]
  simp only [hx, Nat.lt_irrefl, decide_false, decide_true]
  rfl

end Suspend

/-! ### The passes for a window (R100) -/

/-- Whatever entries of other windows stand before it, the request of an entry is not held again (R99). -/
def State.Settles (s : State) (w : WindowId) (n : NodeId) (e : HoldEntry) : Prop :=
  ∃ x, s.tag n e.tag = some x ∧ ∀ earlier : List HoldEntry, (∀ h ∈ earlier, h.window ≠ w) →
    ∀ f c, s.verdict n x.kind x.addr x.len earlier ≠ .hold f c

theorem State.Settles.congr {s t : State} {w : WindowId} {n : NodeId} {e : HoldEntry} (h : s.Settles w n e)
    (hsight : t.sight = s.sight) (htag : t.tag n e.tag = s.tag n e.tag) : t.Settles w n e := by
  obtain ⟨x, hx, hv⟩ := h
  exact ⟨x, htag.trans hx, fun earlier hother f c => by rw [verdict_of_sight hsight]; exact hv earlier hother f c⟩

/-- An entry of an ACTIVE window whose request lies in the entry's own grant finds its window again and is not held, no
entry of the window standing before it (R82, R99). -/
theorem settles_of_backs {s : State} (hm : s.MapsOrdered) {n : NodeId} {e : HoldEntry} (hb : s.Backs n e) {v : Live}
    (hv : (s.window e.window).life = some v) (hst : v.state = .active) : s.Settles e.window n e := by
  obtain ⟨b, k, x, hspan, hx, -, -, haddr, hlen, hoffset⟩ := hb
  refine ⟨x, hx, fun earlier hother f c hheld => ?_⟩
  obtain ⟨m, hentry, hmw, hbase, hbytes⟩ := entryAt_of_span hm hspan (addr := x.addr) (by omega) (by omega)
  have hlive : m.live = v := by
    have hlife := (grant_eq_some_iff.1 (grant_of_entryAt hentry)).1
    rw [hmw, hv] at hlife
    exact (Option.some.inj hlife).symm
  have hactive : m.live.state = .active := by rw [hlive, hst]
  rw [verdict_of_fits hentry (by omega)] at hheld
  split at hheld
  · rw [windowVerdict_execute (.inl hactive) fun h hh hw => absurd (hw.trans hmw) (hother h hh)] at hheld
    simp at hheld
  · simp at hheld

/-- A pass that holds no entry of a window again empties its queue of them, each executed or faulted (R99). -/
theorem replayEntries_settles (w : WindowId) (n : NodeId) (rest kept : List HoldEntry) {s : State}
    (hkept : ∀ e ∈ kept, e.window ≠ w) (honce : (rest.map fun e => e.tag).Nodup)
    (hs : ∀ e ∈ rest, e.window = w → s.Settles w n e) :
    (∀ e ∈ (replayEntries n kept rest s).state.hold n, e.window ≠ w) ∧
      (replayEntries n kept rest s).executed.count w + (replayEntries n kept rest s).faulted.count w =
        rest.countP fun e => e.window == w := by
  induction rest generalizing kept s with
  | nil =>
    refine ⟨fun e he => hkept e ?_, rfl⟩
    rwa [replayEntries, hold_setHold, if_pos rfl] at he
  | cons e rest ih =>
    obtain ⟨hne, honce⟩ := List.nodup_cons.1 honce
    have hnext : ∀ {s' : State}, s'.sight = s.sight → (∀ u, u ≠ e.tag → s'.tag n u = s.tag n u) →
        ∀ e' ∈ rest, e'.window = w → s'.Settles w n e' := fun hsight htag e' he hw =>
      (hs e' (List.mem_cons_of_mem _ he) hw).congr hsight
        (htag e'.tag fun hc => hne (List.mem_map.2 ⟨e', he, hc⟩))
    have hkept' : ∀ c, e.window ≠ w → ∀ e' ∈ kept ++ [{ e with cause := c }], e'.window ≠ w := by
      intro c hw e' he
      rcases List.mem_append.1 he with he | he
      · exact hkept e' he
      · rw [List.mem_singleton.1 he]
        exact hw
    cases hx : s.tag n e.tag with
    | none =>
      have hw : e.window ≠ w := by
        intro hw
        obtain ⟨x, hx', -⟩ := hs e (List.mem_cons_self ..) hw
        simp [hx] at hx'
      simp only [replayEntries, hx]
      simpa [hw] using ih (kept ++ [e]) (hkept' e.cause hw) honce (hnext rfl fun _ _ => rfl)
    | some x =>
      cases hv : s.verdict n x.kind x.addr x.len kept with
      | hold f c =>
        have hw : e.window ≠ w := by
          intro hw
          obtain ⟨x', hx', hnot⟩ := hs e (List.mem_cons_self ..) hw
          obtain rfl := Option.some.inj (hx'.symm.trans hx)
          exact hnot kept hkept f c hv
        simp only [replayEntries, hx, hv]
        have htags : ∀ u, u ≠ e.tag →
            (s.setTag n e.tag (some { x with toMatched := f })).tag n u = s.tag n u := fun u hu => by
          rw [tag_setTag, if_neg fun hc => hu hc.2.symm]
        simpa [hw] using ih _ (hkept' c hw) honce (hnext (setTag_sight ..) htags)
      | fault r =>
        simp only [replayEntries, hx, hv]
        have htags : ∀ u, u ≠ e.tag → (s.faultEntry n r e).tag n u = s.tag n u := fun u hu => by
          rw [tag_faultEntry, if_neg fun hc => hu hc.2.symm]
        obtain ⟨hgone, hcount⟩ := ih kept hkept honce (hnext (faultEntry_sight ..) htags)
        refine ⟨hgone, ?_⟩
        rw [List.count_cons, List.countP_cons, ← hcount]
        exact (Nat.add_assoc ..).symm
      | execute f =>
        simp only [replayEntries, hx, hv]
        have htags : ∀ u, u ≠ e.tag → ((s.lowerHeld e.window n).beginExecution n e.tag
            ⟨x.kind, x.addr, x.len, x.data.getD []⟩ f).tag n u = s.tag n u := fun u hu => by
          rw [tag_executeEntry hv, if_neg fun hc => hu hc.2.symm]
        obtain ⟨hgone, hcount⟩ := ih kept hkept honce (hnext (executeEntry_sight ..) htags)
        refine ⟨hgone, ?_⟩
        rw [List.count_cons, List.countP_cons, ← hcount]
        omega

/-- A queue without an entry of the window is passed over (R100). -/
theorem node_of_none {w : WindowId} {n : NodeId} {p : Pass} (h : ∀ e ∈ p.state.hold n, e.window ≠ w) :
    Pass.node w p n = p := by
  rw [Pass.node, if_neg]
  simpa using h

/-- The passes end at once when no queue holds an entry of the window (R100). -/
theorem replayWindow_of_none {s : State} {w : WindowId} (h : ∀ n, ∀ e ∈ s.hold n, e.window ≠ w) :
    (s.replayWindow w).state = s := by
  have hfold : ∀ l : List NodeId, l.foldl (Pass.node w) ⟨s, [], []⟩ = ⟨s, [], []⟩ := by
    intro l
    induction l with
    | nil => rfl
    | cons n l ih => rw [List.foldl_cons, node_of_none (p := ⟨s, [], []⟩) (h n), ih]
  rw [State.replayWindow, hfold]

/-- Every entry of the window in the queues of these nodes settles, and each of these queues holds a tag once. -/
def State.AllSettle (s : State) (w : WindowId) (l : List NodeId) : Prop :=
  ∀ n ∈ l, ((s.hold n).map fun e => e.tag).Nodup ∧ ∀ e ∈ s.hold n, e.window = w → s.Settles w n e

/-- One node's turn: its queue is emptied of the window's entries, each counted once, and the other queues and what is to
become of their entries stay (R100). -/
theorem node_settles {w : WindowId} {n : NodeId} {l : List NodeId} {p : Pass} (hn : n ∉ l)
    (h : p.state.AllSettle w (n :: l)) :
    (∀ e ∈ (Pass.node w p n).state.hold n, e.window ≠ w) ∧
      (∀ m, m ≠ n → (Pass.node w p n).state.hold m = p.state.hold m) ∧ (Pass.node w p n).state.AllSettle w l ∧
      (Pass.node w p n).executed.count w + (Pass.node w p n).faulted.count w =
        p.executed.count w + p.faulted.count w + (p.state.heldUnder w n).length := by
  obtain ⟨honce, hs⟩ := h n (List.mem_cons_self ..)
  have hl : p.state.AllSettle w l := fun m hm => h m (List.mem_cons_of_mem _ hm)
  by_cases hnone : ∀ e ∈ p.state.hold n, e.window ≠ w
  · have hempty : p.state.heldUnder w n = [] := by simpa [State.heldUnder] using hnone
    rw [node_of_none hnone, hempty]
    exact ⟨hnone, fun _ _ => rfl, hl, rfl⟩
  · have hany : (p.state.hold n).any (fun e => e.window == w) = true := by simpa using hnone
    obtain ⟨hgone, hcount⟩ := replayEntries_settles w n (p.state.hold n) [] (by simp) honce hs
    have hcountP := List.countP_eq_length_filter (p := fun e : HoldEntry => e.window == w) (l := p.state.hold n)
    rw [Pass.node, if_pos hany]
    refine ⟨hgone, fun m hm => hold_replay_of_ne _ hm, fun m hm => ?_, ?_⟩
    · have hmn : m ≠ n := fun hc => hn (hc ▸ hm)
      simp only [hold_replay_of_ne p.state hmn]
      refine ⟨(hl m hm).1, fun e he hw => ((hl m hm).2 e he hw).congr (replayEntries_sight ..) ?_⟩
      exact tag_replayEntries n _ _ _ fun hc => absurd hc.symm hmn
    · simp only [List.count_append, State.heldUnder]
      unfold State.replay
      omega

/-- The passes over some nodes empty their queues of the window's entries, each counted once (R100). -/
theorem foldl_node_settles (w : WindowId) (l : List NodeId) {p : Pass} (hl : l.Nodup) (h : p.state.AllSettle w l) :
    (∀ n ∈ l, ∀ e ∈ (l.foldl (Pass.node w) p).state.hold n, e.window ≠ w) ∧
      (∀ n, n ∉ l → (l.foldl (Pass.node w) p).state.hold n = p.state.hold n) ∧
      (l.foldl (Pass.node w) p).executed.count w + (l.foldl (Pass.node w) p).faulted.count w =
        p.executed.count w + p.faulted.count w + (l.map fun n => (p.state.heldUnder w n).length).sum := by
  induction l generalizing p with
  | nil => simp
  | cons n l ih =>
    obtain ⟨hn, hl⟩ := List.nodup_cons.1 hl
    obtain ⟨hgone, hothers, hsettle, hcount⟩ := node_settles hn h
    obtain ⟨hgone', hothers', hcount'⟩ := ih hl hsettle
    have hunder : (l.map fun m => ((Pass.node w p n).state.heldUnder w m).length) =
        l.map fun m => (p.state.heldUnder w m).length := by
      refine List.map_congr_left fun m hm => ?_
      rw [State.heldUnder, hothers m fun hc => hn (hc ▸ hm), State.heldUnder]
    refine ⟨fun m hm => ?_, fun m hm => ?_, ?_⟩
    · rcases List.mem_cons.1 hm with rfl | hm
      · rw [List.foldl_cons, hothers' m hn]
        exact hgone
      · exact hgone' m hm
    · obtain ⟨hmn, hml⟩ := not_or.1 (mt List.mem_cons.2 hm)
      exact (hothers' m hml).trans (hothers m hmn)
    · rw [List.foldl_cons, hcount', hcount, hunder, List.map_cons, List.sum_cons]
      omega

/-! ### RESUME (R110) -/

/-- A suspended window is ACTIVE again, before the passes (R110). -/
def State.reactivated (s : State) (w : WindowId) (v : Live) : State :=
  s.withLife w { v with state := .active, quietPending := false }

/-- RESUME of a SUSPENDED window makes it ACTIVE, takes the passes and counts what they did (R110). -/
theorem exec_resume {s : State} {p : Vector Word 8} {w : WindowId} {v : Live} (h : s.completing .resume p)
    (hn : s.names p w v) (hst : v.state = .suspended) :
    exec .commandCompletion s = .next
      (((s.reactivated w v).replayWindow w).state.completed .done
        [slotOf v.held, slotOf (((s.reactivated w v).replayWindow w).executed.count w),
          slotOf (((s.reactivated w v).replayWindow w).faulted.count w),
          slotOf (((s.reactivated w v).replayWindow w).state.windowExecuting w)]) := by
  refine commandCompletion_of_carriedOut h ?_
  have hpassed : s.windowCheck .resume p = .passed w v := windowCheck_passed hn (by rw [hst]; rfl)
  simp only [complete, completeResume, hpassed, State.resume, updateLive_of_life hn.2.1, State.reactivated]

/-- The passes of a RESUME leave no entry of the window held, and each that was held is executed or faulted (R110,
R100). -/
theorem replayWindow_reactivated {s : State} {w : WindowId} {v : Live} (hv : (s.window w).life = some v)
    (ht : s.TagsAgree) (hm : s.MapsOrdered) (hc : s.CountsAgree) :
    (∀ n, ∀ e ∈ ((s.reactivated w v).replayWindow w).state.hold n, e.window ≠ w) ∧
      ((s.reactivated w v).replayWindow w).executed.count w + ((s.reactivated w v).replayWindow w).faulted.count w =
        v.held := by
  have hledger : (s.reactivated w v).ledger = s.ledger := by
    rw [State.reactivated, ← updateLive_of_life hv fun v => { v with state := .active, quietPending := false }]
    exact updateLive_ledger _ fun _ _ => rfl
  have hlife : ((s.reactivated w v).window w).life = some { v with state := .active, quietPending := false } :=
    congrArg WindowRecord.life (Table.get_put_same ..)
  have hsound := (hc.sound ht hm).of_ledger hledger
  have hhold := hold_of_ledger hledger
  generalize s.reactivated w v = a at *
  have hsettle : a.AllSettle w allNodes := by
    intro n _
    rw [hhold]
    refine ⟨ht.heldOnce n, fun e he hw => ?_⟩
    subst hw
    exact settles_of_backs hsound.maps (hsound.backed n e he) hlife rfl
  obtain ⟨hgone, -, hcount⟩ := foldl_node_settles w allNodes (p := ⟨a, [], []⟩) (by decide) hsettle
  refine ⟨fun n => hgone n (mem_allNodes n), hcount.trans ?_⟩
  rw [hc.windowHeld w v hv]
  simp [State.heldUnder, hhold]

/-- Settles O40: SUSPEND and RESUME by their completions; the passes by what a pass does to its own queue and to the
others. -/
theorem suspensionCompletes : Obligations.SuspensionCompletes := by
  refine ⟨fun s p w v h hn hst => ⟨exec_suspend_executing h hn hst, exec_suspend_quiet h hn hst⟩,
    fun s a p w v h hn hst ha => ?_, fun s n => ⟨hold_replay_sublist s n, fun m hm => hold_replay_of_ne s hm⟩⟩
  subst ha
  exact ⟨exec_resume h hn hst, fun hnone => replayWindow_of_none hnone,
    fun ht hm hc => replayWindow_reactivated hn.2.1 ht hm hc⟩

end Sys2Proof.Machine
end

section
/-! SUPPORT. Entries made hopeless: the counts, ports, capture records and flags they leave; and the expiry of held
entries with the pass that follows (R102, R106). -/

namespace Sys2Proof.Machine

/-! ### One entry -/

section OneFault

variable {s : State} {n : NodeId} {r : FaultReason} {e : HoldEntry}

theorem windows_faultEntry : (s.faultEntry n r e).windows = (s.lowerHeld e.window n).windows := windows_faultTag ..

/-- A fault leaves the capture records of the other nodes as they are (R93). -/
theorem capture_faultEntry_of_ne {m : NodeId} (hm : m ≠ n) : (s.faultEntry n r e).capture m = s.capture m := by
  have hlow : (s.lowerHeld e.window n).capture m = s.capture m :=
    congrFun (capture_of_register (lowerHeld_register ..)) m
  unfold State.faultEntry State.faultTag
  split
  · exact hlow
  · rw [State.sendFault, capture_captureFault, if_neg fun hc => hm hc.1.symm,
      capture_of_register (send_register ..)]
    exact hlow

/-- A fault that is captured fills a clear capture record, with its flag (R93). -/
theorem capture_faultEntry {x : TagEntry} (hx : s.tag n e.tag = some x) (hr : r.captured = true)
    (hc : s.capture n = none) :
    (s.faultEntry n r e).capture n = some ⟨e.tag, x.kind, x.addr, r⟩ ∧
      (s.faultEntry n r e).isPending (.faultCaptured n) = true := by
  have hclear : (((s.lowerHeld e.window n).setTag n e.tag none).send n (.completion e.tag (.fault r))).capture n =
      none := by
    rw [capture_of_register (send_register ..), setTag_capture, capture_of_register (lowerHeld_register ..)]
    exact hc
  rw [faultEntry_of_tag hx, State.sendFault]
  constructor
  · rw [capture_captureFault, if_pos ⟨rfl, hr, hclear⟩]
  · rw [State.captureFault, if_pos (by rw [hclear, hr]; rfl)]
    exact isPending_raise ..

theorem captureFault_keepsFlags (s : State) (n : NodeId) (c : Capture) : s.KeepsFlags (s.captureFault n c) := by
  unfold State.captureFault
  split
  · exact .trans (.of_attention (t := s.setCapture n (some c)) rfl) (raise_keepsFlags ..)
  · exact .refl s

theorem faultEntry_keepsFlags (s : State) (n : NodeId) (r : FaultReason) (e : HoldEntry) :
    s.KeepsFlags (s.faultEntry n r e) := by
  have hsend : ∀ (t : State) (m : Message), t.KeepsFlags (t.send n m) := by
    intro t m
    refine .of_attention ?_
    unfold State.send
    split <;> rfl
  have hlow : s.KeepsFlags (s.lowerHeld e.window n) := updateLive_keepsFlags ..
  unfold State.faultEntry State.faultTag
  split
  · exact hlow
  · exact hlow.trans <| .trans (.of_attention (t := (s.lowerHeld e.window n).setTag n e.tag none) rfl)
      ((hsend ..).trans (captureFault_keepsFlags ..))

end OneFault

/-! ### Several entries -/

section Several

variable {n : NodeId} {r : FaultReason}

/-- Faulted entries leave the windows as entries that are dropped do (R11). -/
theorem windows_foldl_faultEntry (l : List HoldEntry) {s t : State} (h : t.windows = s.windows) :
    (l.foldl (State.faultEntry n r) t).windows = (l.foldl (fun s e => s.lowerHeld e.window n) s).windows := by
  induction l generalizing s t with
  | nil => exact h
  | cons e l ih => exact ih (windows_faultEntry.trans (updateLive_windows h ..))

/-- The held count of a grant falls by the entries that name its window (R11). -/
theorem grant_foldl_faultEntry (l : List HoldEntry) {s : State} {w : WindowId} {v : Live} {g : GrantRecord}
    (hg : s.grant w n = some (v, g)) :
    ∃ b, (l.foldl (State.faultEntry n r) s).grant w n =
      some (b, { g with held := g.held - (l.filter fun e => e.window == w).length }) := by
  obtain ⟨hv, hgn⟩ := grant_eq_some_iff.1 hg
  have hwindow : (l.foldl (State.faultEntry n r) s).window w = (l.foldl (fun s e => s.lowerHeld e.window n) s).window w :=
    congrArg (fun x => Table.get x w) (windows_foldl_faultEntry l rfl)
  refine ⟨v.dropHeld n (l.filter fun e => e.window == w).length, grant_eq_some_iff.2 ⟨?_, ?_⟩⟩
  · rw [hwindow, window_foldl_lowerHeld, hv, Option.map_some]
  · rw [grant_dropHeld, hgn, Option.map_some]

/-- Entries whose tags are held are answered in queue order; no other port changes (R91, R106). -/
theorem port_foldl_faultEntry (l : List HoldEntry) {s : State} (hup : s.link n ≠ .down)
    (honce : (l.map fun e => e.tag).Nodup) (htag : ∀ e ∈ l, ∃ x, s.tag n e.tag = some x) :
    (l.foldl (State.faultEntry n r) s).port = Function.update s.port n
      { s.port n with outbound := (s.port n).outbound ++ l.map fun e => Message.completion e.tag (.fault r) } := by
  induction l generalizing s with
  | nil => simp
  | cons e l ih =>
    obtain ⟨hne, honce⟩ := List.nodup_cons.1 honce
    obtain ⟨x, hx⟩ := htag e (List.mem_cons_self ..)
    have hport := port_faultEntry hup hx r
    have hup' : (s.faultEntry n r e).link n ≠ .down := by
      rw [State.link, hport, Function.update_self]
      exact hup
    rw [List.foldl_cons, ih hup' honce]
    · simp [hport]
    · intro e' he
      rw [tag_faultEntry, if_neg fun hc => hne (List.mem_map.2 ⟨e', he, hc.2.symm⟩)]
      exact htag e' (List.mem_cons_of_mem _ he)

theorem capture_foldl_faultEntry_of_ne (l : List HoldEntry) (s : State) {m : NodeId} (hm : m ≠ n) :
    (l.foldl (State.faultEntry n r) s).capture m = s.capture m := by
  induction l generalizing s with
  | nil => rfl
  | cons e l ih => exact (ih _).trans (capture_faultEntry_of_ne hm)

theorem foldl_faultEntry_freezes (l : List HoldEntry) (s : State) : s.Freezes (l.foldl (State.faultEntry n r) s) := by
  induction l generalizing s with
  | nil => exact .refl s
  | cons e l ih => exact (faultEntry_freezes s n r e).trans (ih _)

theorem foldl_faultEntry_keepsFlags (l : List HoldEntry) (s : State) :
    s.KeepsFlags (l.foldl (State.faultEntry n r) s) := by
  induction l generalizing s with
  | nil => exact .refl s
  | cons e l ih => exact (faultEntry_keepsFlags s n r e).trans (ih _)

/-- The first of the faults fills a clear capture record, and those after it leave it (R93). -/
theorem capture_foldl_faultEntry {e : HoldEntry} (l : List HoldEntry) {s : State} {x : TagEntry}
    (hx : s.tag n e.tag = some x) (hr : r.captured = true) (hc : s.capture n = none) :
    ((e :: l).foldl (State.faultEntry n r) s).capture n = some ⟨e.tag, x.kind, x.addr, r⟩ ∧
      ((e :: l).foldl (State.faultEntry n r) s).isPending (.faultCaptured n) = true := by
  obtain ⟨hcapture, hflag⟩ := capture_faultEntry hx hr hc
  exact ⟨(foldl_faultEntry_freezes l _).stands n _ hcapture, (foldl_faultEntry_keepsFlags l _).pending _ hflag⟩

end Several

/-! ### The entries that expire -/

section Expiry

variable {s : State} {n : NodeId} {hit : HoldEntry → Bool} {r : FaultReason}

/-- Entries made hopeless leave everything but answers as it was (R106). -/
theorem faultHeld_frame (s : State) (n : NodeId) (hit : HoldEntry → Bool) (r : FaultReason) :
    s.faultHeld n hit r =
      { s with
        windows := (s.faultHeld n hit r).windows
        ports := (s.faultHeld n hit r).ports
        tags := (s.faultHeld n hit r).tags
        holds := (s.faultHeld n hit r).holds
        captures := (s.faultHeld n hit r).captures
        attention := (s.faultHeld n hit r).attention } := by
  have h := faultHeld_answers s n hit r
  generalize s.faultHeld n hit r = t at h
  simp only [State.beyondAnswers, State.mk.injEq] at h
  cases t
  simp_all

/-- Which entries leave is decided by the entries that stand in the queue. -/
theorem faultHeld_congr {hit' : HoldEntry → Bool} (h : ∀ e ∈ s.hold n, hit e = hit' e) :
    s.faultHeld n hit r = s.faultHeld n hit' r := by
  have hstay : ∀ e ∈ s.hold n, (!hit e) = !hit' e := fun e he => congrArg Bool.not (h e he)
  rw [State.faultHeld, State.faultHeld, List.filter_congr h, List.filter_congr hstay]

theorem hold_faultHeld_same : (s.faultHeld n hit r).hold n = (s.hold n).filter fun e => !hit e := by
  rw [hold_faultHeld, Function.update_self]

theorem hold_faultHeld_of_ne {m : NodeId} (hm : m ≠ n) : (s.faultHeld n hit r).hold m = s.hold m := by
  rw [hold_faultHeld, Function.update_of_ne hm]

/-- The tags of the entries made hopeless are free, and no other tag changes (R91). -/
theorem tag_faultHeld (m : NodeId) (u : Tag) :
    (s.faultHeld n hit r).tag m u =
      if n = m ∧ u ∈ ((s.hold n).filter hit).map (fun e => e.tag) then none else s.tag m u :=
  tag_foldl_faultEntry ..

theorem grant_faultHeld {w : WindowId} {v : Live} {g : GrantRecord} (hg : s.grant w n = some (v, g)) :
    ∃ b, (s.faultHeld n hit r).grant w n =
      some (b, { g with held := g.held - (((s.hold n).filter hit).filter fun e => e.window == w).length }) :=
  grant_foldl_faultEntry ((s.hold n).filter hit) (s := s.setHold n ((s.hold n).filter fun e => !hit e)) hg

/-- The completions of the entries made hopeless go out in queue order (R91, R106). -/
theorem port_faultHeld (ha : s.TagsAgree) (hup : s.link n ≠ .down) :
    (s.faultHeld n hit r).port = Function.update s.port n
      { s.port n with
        outbound := (s.port n).outbound ++
          ((s.hold n).filter hit).map fun e => Message.completion e.tag (.fault r) } := by
  refine port_foldl_faultEntry ((s.hold n).filter hit) (s := s.setHold n ((s.hold n).filter fun e => !hit e)) hup
    ((ha.heldOnce n).sublist (List.filter_sublist.map _)) fun e he => ?_
  obtain ⟨x, hx, -⟩ := ha.heldTag n e (List.mem_of_mem_filter he)
  exact ⟨x, hx⟩

theorem capture_faultHeld_of_ne {m : NodeId} (hm : m ≠ n) : (s.faultHeld n hit r).capture m = s.capture m :=
  (capture_foldl_faultEntry_of_ne _ _ hm).trans (setHold_capture ..)

theorem capture_faultHeld {first : HoldEntry} {later : List HoldEntry} {x : TagEntry}
    (hgone : (s.hold n).filter hit = first :: later) (hx : s.tag n first.tag = some x) (hr : r.captured = true)
    (hc : s.capture n = none) :
    (s.faultHeld n hit r).capture n = some ⟨first.tag, x.kind, x.addr, r⟩ ∧
      (s.faultHeld n hit r).isPending (.faultCaptured n) = true := by
  rw [State.faultHeld, hgone]
  exact capture_foldl_faultEntry later hx hr hc

end Expiry

/-! ### The pass that follows -/

/-- A pass changes nothing of the time (R99). -/
theorem now_replay (s : State) (n : NodeId) : (s.replay n).state.now = s.now := (congrArg State.now (replay_requests s n) :)

/-- An expiry time that no entry of a queue has is none of those the pass leaves (R99). -/
theorem expiry_replay {s : State} {n : NodeId} {P : Nat → Prop} (h : ∀ e ∈ s.hold n, P e.expiry) :
    ∀ e ∈ (s.replay n).state.hold n, P e.expiry := by
  intro e he
  obtain ⟨e', he', heq⟩ := List.mem_map.1 ((hold_replay_sublist s n).subset (List.mem_map_of_mem he))
  have hexpiry : e'.expiry = e.expiry := congrArg (fun x => x.2.2.2) heq
  exact hexpiry ▸ h e' he'

/-- A pass sends more messages behind those that stand in the queue (R58, R99). -/
theorem outbound_replay (s : State) (n : NodeId) :
    ∃ more, ((s.replay n).state.port n).outbound = (s.port n).outbound ++ more := by
  obtain ⟨more, hmore⟩ := (replayEntries_appends s n (s.hold n) []).tails n
  exact ⟨more, congrArg Port.outbound hmore⟩

/-! ### The expiry -/

/-- What an expiry leaves for the pass that follows: time stands at the expiry, and the entries whose time it is have
left with HOLD_EXPIRED (R102, log 5). -/
def State.expired (s : State) (n : NodeId) (time : Nat) : State :=
  ({ s with now := max s.now time } : State).faultHeld n (fun e => e.expiry == time) .holdExpired

section Expired

variable {s : State} {n : NodeId} {time : Nat}

/-- HOLD_EXPIRY at the first of the times waited for: the entries due are those of that time, since none is earlier; the
pass follows in the same event (R102). -/
theorem exec_holdExpiry (hr : s.resetHeld = false) (hdue : ∃ e ∈ s.hold n, e.expiry = time)
    (hfirst : ∀ x ∈ s.timers, time ≤ x) :
    exec (.holdExpiry n) s = .next ((s.expired n time).replay n).state := by
  have hhit : ∀ e ∈ s.hold n, decide (e.expiry ≤ time) = (e.expiry == time) := by
    intro e he
    have hle := hfirst _ (expiry_mem_timers he)
    grind
  rw [exec_holdExpiry_due hr hdue hfirst, State.expireHolds, faultHeld_congr (s := { s with now := max s.now time }) hhit]
  rfl

theorem expired_frame (s : State) (n : NodeId) (time : Nat) :
    s.expired n time =
      { s with
        now := max s.now time
        windows := (s.expired n time).windows
        ports := (s.expired n time).ports
        tags := (s.expired n time).tags
        holds := (s.expired n time).holds
        captures := (s.expired n time).captures
        attention := (s.expired n time).attention } := faultHeld_frame ..

theorem now_expired (s : State) (n : NodeId) (time : Nat) : (s.expired n time).now = max s.now time :=
  congrArg State.now (expired_frame s n time)

/-- The entries whose time has not come stay (R102). -/
theorem hold_expired (s : State) (n : NodeId) (time : Nat) :
    (s.expired n time).hold n = (s.hold n).filter fun e => e.expiry != time := hold_faultHeld_same

/-- A tag of the node is free once its entry has expired; every other tag stays (R91). -/
theorem tag_expired (m : NodeId) (u : Tag) :
    (s.expired n time).tag m u =
      if n = m ∧ u ∈ ((s.hold n).filter fun e => e.expiry == time).map (fun e => e.tag) then none else s.tag m u :=
  tag_faultHeld ..

/-- A valid fault capture record outlasts the expiry (R93). -/
theorem expired_freezes (s : State) (n : NodeId) (time : Nat) : s.Freezes (s.expired n time) :=
  .trans (.of_captures (t := { s with now := max s.now time }) rfl) (faultHeld_freezes ..)

/-- Every entry the pass leaves expires later than the expiry it follows (R102). -/
theorem expiry_replay_expired (hfirst : ∀ x ∈ s.timers, time ≤ x) :
    ∀ e ∈ ((s.expired n time).replay n).state.hold n, time < e.expiry := by
  refine expiry_replay (P := (time < ·)) fun e he => ?_
  rw [hold_expired] at he
  obtain ⟨he, hne⟩ := List.mem_filter.1 he
  exact Nat.lt_of_le_of_ne (hfirst _ (expiry_mem_timers he)) fun hc => by simp [hc] at hne

/-- The pass has no business with the tags of the entries that expired (R96). -/
theorem tag_replay_expired (ha : s.TagsAgree) {e : HoldEntry} (he : e ∈ (s.hold n).filter fun e => e.expiry == time) :
    (s.expired n time).tag n e.tag = none ∧ ((s.expired n time).replay n).state.tag n e.tag = none := by
  have hfree : (s.expired n time).tag n e.tag = none := by
    rw [tag_expired, if_pos ⟨rfl, List.mem_map_of_mem he⟩]
  have hagree : (s.expired n time).TagsAgree :=
    State.TagsAgree.faultHeld (ha.of_register (t := { s with now := max s.now time }) rfl) n _ .holdExpired
  refine ⟨hfree, (tag_replayEntries n _ _ _ fun _ hc => ?_).trans hfree⟩
  obtain ⟨e', he', heq⟩ := List.mem_map.1 hc
  obtain ⟨x, hx, -⟩ := hagree.heldTag n e' he'
  rw [heq, hfree] at hx
  simp at hx

end Expired

/-- Settles O38: the entries at their expiry time are those made hopeless, and the pass follows on the state they
leave. -/
theorem holdExpiryFaultsEntries : Obligations.HoldExpiryFaultsEntries := by
  intro s n time gone hr ha hb hdue hfirst hgone
  subst hgone
  have hup : s.link n ≠ .down := by
    obtain ⟨e, he, -⟩ := hdue
    intro hdown
    have hempty := (hb n).2 (by simp [hdown])
    simp [hempty] at he
  have hagree : ({ s with now := max s.now time } : State).TagsAgree := ha.of_register rfl
  have hport : (s.expired n time).port = _ := port_faultHeld hagree hup
  obtain ⟨more, hmore⟩ := outbound_replay (s.expired n time) n
  refine ⟨s.expired n time, _, more, exec_holdExpiry hr hdue hfirst, rfl, expired_frame s n time,
    hagree.faultHeld n _ .holdExpired, hold_expired s n time, fun m hm => hold_faultHeld_of_ne hm,
    fun e he => (tag_replay_expired ha he).1, fun m tag hout => ?_, fun w v g hg => grant_faultHeld hg, ?_,
    fun m hm => ⟨?_, capture_faultHeld_of_ne hm⟩, (expired_freezes s n time).stands n,
    fun hclear first later x hfirst' hx => capture_faultHeld hfirst' hx rfl hclear, ?_,
    expiry_replay_expired hfirst, fun e he => (tag_replay_expired ha he).2, ?_⟩
  · rw [tag_expired, if_neg]
    rintro ⟨rfl, hin⟩
    obtain ⟨e, he, heq⟩ := List.mem_map.1 hin
    exact hout.elim (fun hm => hm rfl) fun hne => hne e he heq
  · rw [hport, Function.update_self]
    rfl
  · rw [hport, Function.update_of_ne hm]
    rfl
  · rw [now_replay, now_expired]
  · rw [hmore, hport, Function.update_self]
    rfl

end Sys2Proof.Machine
end

section
/-! SUPPORT. The unlisting of a grant, whatever its node holds: the entries faulted, the window the grant leaves, the
extent it frees and the flags it raises (R106, R116, R122, R126). -/

namespace Sys2Proof.Machine

/-! ### What faulted entries leave of windows and ports -/

theorem grant_dropHeld_of_ne (v : Live) {n m : NodeId} (hm : m ≠ n) (k : Nat) :
    (v.dropHeld n k).grant m = v.grant m :=
  (grant_updateGrant v n m (fun g => { g with held := g.held - k }) fun _ => rfl).trans (if_neg hm)

/-- Answers to nodes change no map. -/
theorem map_of_answers {s t : State} (h : t.beyondAnswers = s.beyondAnswers) : t.map = s.map :=
  funext fun n => congrArg (Table.get · n) (maps_of_answers h)

section HeldFaults

variable {s : State} {n : NodeId} {hit : HoldEntry → Bool} {r : FaultReason}

theorem faultHeld_of_none (h : ∀ e ∈ s.hold n, hit e = false) : s.faultHeld n hit r = s := by
  have hgo : (s.hold n).filter hit = [] := by simpa using h
  have hstay : ((s.hold n).filter fun e => !hit e) = s.hold n := by simpa using h
  rw [State.faultHeld, hgo, hstay, List.foldl_nil, setHold_self]

/-- The entries made hopeless lower the held counts of the windows they name (R11, R106). -/
theorem window_faultHeld (x : WindowId) :
    (s.faultHeld n hit r).window x =
      { s.window x with
        life := (s.window x).life.map fun v =>
          v.dropHeld n (((s.hold n).filter hit).filter fun e => e.window == x).length } :=
  (congrArg (Table.get · x) (windows_foldl_faultEntry ((s.hold n).filter hit) rfl)).trans
    (window_foldl_lowerHeld n _ (s.setHold n _) x)

theorem window_faultHeld_of_unnamed {x : WindowId} (h : ∀ e ∈ s.hold n, hit e = true → e.window ≠ x) :
    (s.faultHeld n hit r).window x = s.window x := by
  have hnone : (((s.hold n).filter hit).filter fun e => e.window == x) = [] := by
    refine List.filter_eq_nil_iff.2 fun e he hw => ?_
    obtain ⟨hin, hhit⟩ := List.mem_filter.1 he
    exact h e hin hhit (eq_of_beq hw)
  rw [window_faultHeld, hnone]
  simp [dropHeld_zero]

/-- The completions of the entries made hopeless go out in queue order; a port in DOWN has none to send (R58, R105). -/
theorem port_faultHeld_of_bounded (ha : s.TagsAgree) (hb : s.HoldsBounded) :
    (s.faultHeld n hit r).port = Function.update s.port n
      { s.port n with
        outbound := (s.port n).outbound ++
          ((s.hold n).filter hit).map fun e => Message.completion e.tag (.fault r) } := by
  by_cases hl : s.link n = .down
  · have hempty : s.hold n = [] := (hb n).2 (by simp [hl])
    rw [faultHeld_of_none (by simp [hempty]), hempty]
    simp
  · exact port_faultHeld ha hl

end HeldFaults

/-! ### The grant out of its map -/

/-- An unlisting up to the removal: the grant out of its node's map and DRAINING, the entries held under it faulted
(R106, R116). -/
def State.unlisted (s : State) (w : WindowId) (n : NodeId) : State :=
  (s.delist w n).faultHeld n (fun e => e.window == w) .revoked

/-- A window whose grant for a node is DRAINING and has lost `k` held entries. -/
def Live.unlisted (v : Live) (n : NodeId) (k : Nat) : Live :=
  (v.updateGrant n fun g => { g with state := .draining }).dropHeld n k

theorem grant_live_unlisted (v : Live) (n : NodeId) (k : Nat) :
    (v.unlisted n k).grant n = (v.grant n).map fun g => { g with state := .draining, held := g.held - k } := by
  rw [Live.unlisted, grant_dropHeld, grant_updateGrant v n n (fun g => { g with state := .draining }) fun _ => rfl,
    if_pos rfl, Option.map_map]
  rfl

theorem nodes_live_unlisted (v : Live) (n m : NodeId) (k : Nat) :
    (∀ g ∈ (v.unlisted n k).grants, g.node = m) ↔ ∀ g ∈ v.grants, g.node = m := by
  have hnode : ∀ g : GrantRecord, (if g.node = n then { g with state := .draining } else g).node = g.node := by
    intro g
    split <;> rfl
  rw [Live.unlisted, nodes_dropHeld]
  simp only [Live.updateGrant, List.forall_mem_map, hnode]

section Unlisted

variable (s : State) (w : WindowId) (n : NodeId)

theorem unlist_eq_unlisted : s.unlist w n = (s.unlisted w n).removeIfDrained w n := rfl

theorem delist_register : (s.delist w n).register = s.register := updateLive_register ..

theorem port_delist : (s.delist w n).port = s.port := funext fun m => updateLive_port (s.setMap n _) w _ m

theorem hold_delist : (s.delist w n).hold = s.hold := hold_of_register (delist_register ..)

theorem unlisted_answers : (s.unlisted w n).beyondAnswers = (s.delist w n).beyondAnswers := faultHeld_answers ..

theorem map_unlisted (m : NodeId) :
    (s.unlisted w n).map m = if n = m then (s.map n).filter fun x => x != w else s.map m := by
  rw [map_of_answers (unlisted_answers ..), map_delist]

theorem freeList_unlisted : (s.unlisted w n).freeList = s.freeList :=
  (freeList_of_answers (unlisted_answers ..)).trans (freeList_updateLive ..)

theorem hold_unlisted :
    (s.unlisted w n).hold = Function.update s.hold n ((s.hold n).filter fun e => e.window != w) := by
  rw [State.unlisted, hold_faultHeld, hold_delist]
  rfl

variable {s w n}

theorem port_unlisted (ha : s.TagsAgree) (hb : s.HoldsBounded) :
    (s.unlisted w n).port = Function.update s.port n
      { s.port n with
        outbound := (s.port n).outbound ++
          (s.heldUnder w n).map fun e => Message.completion e.tag (.fault .revoked) } := by
  have hhold := hold_delist s w n
  have hb' : (s.delist w n).HoldsBounded := by
    intro m
    rw [hhold, State.link, port_delist]
    exact hb m
  rw [State.unlisted, port_faultHeld_of_bounded (ha.of_register (delist_register ..)) hb', hhold, port_delist]
  rfl

theorem window_unlisted_of_ne {x : WindowId} (hx : x ≠ w) : (s.unlisted w n).window x = s.window x := by
  rw [State.unlisted, window_faultHeld_of_unnamed, window_delist, if_neg hx.symm]
  intro e _ he
  simp only [beq_iff_eq] at he
  exact he ▸ hx.symm

theorem life_unlisted {v : Live} (hv : (s.window w).life = some v) :
    ((s.unlisted w n).window w).life = some (v.unlisted n (s.heldUnder w n).length) := by
  have hfilter : ((s.heldUnder w n).filter fun e => e.window == w) = s.heldUnder w n := by
    simp [State.heldUnder]
  rw [State.unlisted, window_faultHeld, window_delist, if_pos rfl, hold_delist, hv]
  rw [State.heldUnder] at hfilter
  simp only [Option.map_some, hfilter]
  rfl

theorem generation_unlisted (x : WindowId) : ((s.unlisted w n).window x).generation = (s.window x).generation := by
  rw [State.unlisted, window_faultHeld, window_delist]
  split <;> rfl

theorem grant_unlisted {v : Live} {g : GrantRecord} (hg : s.grant w n = some (v, g)) :
    (s.unlisted w n).grant w n =
      some (v.unlisted n (s.heldUnder w n).length,
        { g with state := .draining, held := g.held - (s.heldUnder w n).length }) := by
  obtain ⟨hv, hgn⟩ := grant_eq_some_iff.1 hg
  refine grant_eq_some_iff.2 ⟨life_unlisted hv, ?_⟩
  rw [grant_live_unlisted, hgn]
  rfl

end Unlisted

/-! ### What becomes of the grant -/

section Fate

variable {s : State} {w : WindowId} {n : NodeId} {v : Live} {g : GrantRecord} (hg : s.grant w n = some (v, g))
include hg

/-- A grant under which something executes stays, DRAINING (R116). -/
theorem unlist_draining (hx : 0 < g.executing) : s.unlist w n = s.unlisted w n := by
  refine (unlist_eq_unlisted s w n).trans (removeIfDrained_kept fun u k hk _ => ?_)
  obtain ⟨-, rfl⟩ := Prod.mk.inj (Option.some.inj ((grant_unlisted hg).symm.trans hk))
  exact Nat.pos_iff_ne_zero.1 hx

variable (hx : g.executing = 0)
include hx

/-- A grant under which nothing executes is struck from its window (R122). -/
theorem unlist_removed : s.unlist w n = ((s.unlisted w n).strike w n).retireIfEmpty w :=
  removeIfDrained_drained (grant_unlisted hg) rfl hx

/-- A window that is not RETIRING, or that another node has a grant of, stays in use (R122). -/
theorem unlist_struck (hk : v.state ≠ .retiring ∨ ∃ k ∈ v.grants, k.node ≠ n) :
    s.unlist w n = (s.unlisted w n).strike w n := by
  have hk' : (v.unlisted n (s.heldUnder w n).length).state ≠ .retiring ∨
      ∃ k ∈ (v.unlisted n (s.heldUnder w n).length).grants, k.node ≠ n := by
    refine hk.imp_right fun hother => ?_
    by_contra hnone
    push Not at hnone
    obtain ⟨k, hk, hne⟩ := hother
    exact hne ((nodes_live_unlisted v n n _).1 hnone k hk)
  rw [unlist_removed hg hx, retireIfEmpty_strike_kept (life_unlisted (grant_eq_some_iff.1 hg).1) hk']

/-- A RETIRING window that is left without grants is freed (R122, R126). -/
theorem unlist_last (hr : v.state = .retiring) (ha : ∀ k ∈ v.grants, k.node = n) :
    ∃ u : Live, u.home = v.home ∧ s.unlist w n = ((s.unlisted w n).strike w n).completeRetirement w u := by
  refine ⟨_, ?_, (unlist_removed hg hx).trans (retireIfEmpty_strike_freed (life_unlisted (grant_eq_some_iff.1 hg).1)
    hr ((nodes_live_unlisted v n n _).2 ha))⟩
  rfl

theorem isPending_removed : (s.unlist w n).isPending (.grantRemoved w) = true := by
  rw [unlist_removed hg hx]
  exact (retireIfEmpty_keepsFlags ..).pending _ (isPending_raise ..)

theorem window_unlist_last (hr : v.state = .retiring) (ha : ∀ k ∈ v.grants, k.node = n) :
    (s.unlist w n).window w = { generation := (s.window w).generation + 1, life := none } ∧
      (s.unlist w n).freeList = release v.home s.freeList ∧ (s.unlist w n).isPending (.retireDone w) = true := by
  obtain ⟨u, hhome, hu⟩ := unlist_last hg hx hr ha
  have hgen : (((s.unlisted w n).strike w n).window w).generation = (s.window w).generation := by
    rw [window_strike (life_unlisted (grant_eq_some_iff.1 hg).1)]
    exact generation_unlisted w
  have hfree : ((s.unlisted w n).strike w n).freeList = s.freeList := freeList_strike.trans (freeList_unlisted ..)
  rw [hu]
  refine ⟨?_, ?_, isPending_retireDone ..⟩
  · rw [window_completeRetirement, if_pos rfl, hgen]
  · rw [← hfree, ← hhome]
    rfl

theorem grant_unlist_removed : (s.unlist w n).grant w n = none := by
  by_cases hc : v.state = .retiring ∧ ∀ k ∈ v.grants, k.node = n
  · exact grant_of_free (congrArg WindowRecord.life (window_unlist_last hg hx hc.1 hc.2).1) n
  · rw [unlist_struck hg hx (by by_contra hn; push Not at hn; exact hc hn)]
    exact grant_strike (life_unlisted (grant_eq_some_iff.1 hg).1)

end Fate

/-! ### What an unlisting leaves as it was -/

theorem window_removeIfDrained_of_ne {s : State} {w x : WindowId} (hx : x ≠ w) (n : NodeId) :
    (s.removeIfDrained w n).window x = s.window x := by
  have hempty : ∀ t : State, (t.retireIfEmpty w).window x = t.window x := by
    intro t
    unfold State.retireIfEmpty
    split
    · rfl
    · split
      · rw [window_completeRetirement, if_neg hx.symm]
      · rfl
  have hstrike : (s.strike w n).window x = s.window x := by
    rw [State.strike, State.raise, setReasons_window, window_updateLive, if_neg hx.symm]
  unfold State.removeIfDrained
  split
  · rfl
  · split
    · exact (hempty _).trans hstrike
    · rfl

/-- An unlisting leaves every other window as it was, whatever the node holds. -/
theorem window_unlist_of_other {s : State} {w x : WindowId} (hx : x ≠ w) (n : NodeId) :
    (s.unlist w n).window x = s.window x := by
  rw [unlist_eq_unlisted, window_removeIfDrained_of_ne hx, window_unlisted_of_ne hx]

theorem unlist_removals_unlisted (s : State) (w : WindowId) (n : NodeId) :
    (s.unlist w n).beyondRemovals = (s.unlisted w n).beyondRemovals := removeIfDrained_removals ..

/-- Settles O41: the grant leaves its map, the entries under it are faulted, and then it drains or is removed by its
executing count. -/
theorem unlistingWithdrawsGrant : Obligations.UnlistingWithdrawsGrant := by
  intro s w n v g ha hb hv hgn
  have hg : s.grant w n = some (v, g) := grant_eq_some_iff.2 ⟨hv, hgn⟩
  have hrest := unlist_removals_unlisted s w n
  have hmap := map_of_removals hrest
  have hhold := (hold_of_removals hrest).trans (hold_unlisted s w n)
  have hport := (port_of_removals hrest).trans (port_unlisted ha hb)
  refine ⟨?_, ?_, ?_, fun m hm => ⟨?_, ?_, ?_⟩, fun x hx => window_unlist_of_other hx n, fun hx => ?_, fun hx =>
    ⟨isPending_removed hg hx, grant_unlist_removed hg hx, window_unlist_last hg hx⟩, ?_, ?_⟩
  · rw [hmap, map_unlisted, if_pos rfl]
  · rw [hhold, Function.update_self]
  · rw [hport, Function.update_self]
    rfl
  · rw [hmap, map_unlisted, if_neg hm.symm]
  · rw [hhold, Function.update_of_ne hm]
  · rw [hport, Function.update_of_ne hm]
  · obtain ⟨hlife, hgrant⟩ := grant_eq_some_iff.1 (grant_unlisted hg)
    rw [unlist_draining hg hx]
    exact ⟨_, _, hlife, hgrant, rfl, rfl, rfl, rfl⟩
  · rw [transactions_of_removals hrest, transactions_of_answers (unlisted_answers ..)]
    exact transactions_of_register (delist_register ..)
  · rw [channels_of_removals hrest, channels_of_answers (unlisted_answers ..)]
    exact (channels_of_removals (updateLive_removals ..)).trans rfl

end Sys2Proof.Machine
end

section
/-! SUPPORT. REVOKE, the acknowledgement of a notice and the expiry of its deadline (R72, R112 to R119). -/

namespace Sys2Proof.Machine

/-! ### The number of a notice (R72) -/

/-- The search for a number gives the first value it has not passed over, all of which are held (R72). -/
theorem freeNumber_search (s : State) (n : NodeId) (k : Nat) (c : Byte) :
    ∃ j ≤ k, s.freeNumber n k c = c + BitVec.ofNat 8 j ∧
      ∀ i < j, s.numberHeld n (c + BitVec.ofNat 8 i) = true := by
  induction k generalizing c with
  | zero => exact ⟨0, Nat.le_refl 0, by simp [State.freeNumber], by simp⟩
  | succ k ih =>
    unfold State.freeNumber
    split
    · rename_i hheld
      obtain ⟨j, hj, hfound, hpassed⟩ := ih (c + 1)
      have hshift : ∀ i, c + BitVec.ofNat 8 (i + 1) = c + 1 + BitVec.ofNat 8 i := by
        intro i
        rw [BitVec.ofNat_add, BitVec.add_comm (BitVec.ofNat 8 i), ← BitVec.add_assoc]
        rfl
      refine ⟨j + 1, by omega, hfound.trans (hshift j).symm, fun i hi => ?_⟩
      cases i with
      | zero => simpa using hheld
      | succ i =>
        rw [hshift]
        exact hpassed i (by omega)
    · exact ⟨0, Nat.zero_le _, by simp, by simp⟩

/-- Of the 256 values one is free, so that the search ends before it comes round to the counter again (R72). -/
theorem noticeNumber_first (s : State) (n : NodeId) :
    ∃ k < 256, s.noticeNumber n = (s.port n).counter + BitVec.ofNat 8 k ∧
      ∀ i < k, s.numberHeld n ((s.port n).counter + BitVec.ofNat 8 i) = true := by
  obtain ⟨k, hk, hfound, hpassed⟩ := freeNumber_search s n 256 (s.port n).counter
  rw [State.noticeNumber]
  refine ⟨k, Nat.lt_of_le_of_ne hk ?_, hfound, hpassed⟩
  rintro rfl
  have hround : (s.port n).counter + BitVec.ofNat 8 256 = (s.port n).counter + BitVec.ofNat 8 0 := rfl
  have hfree := noticeNumber_free s n
  rw [State.noticeNumber, hfound, hround, hpassed 0 (by decide)] at hfree
  cases hfree

/-! ### The notice and the shortcut (R113 to R115) -/

theorem canBeAsked_iff {l : LinkState} : l.canBeAsked = true ↔ l = .admitted ∨ l = .fencing := by
  cases l <;> simp [LinkState.canBeAsked]

theorem up_of_asked {l : LinkState} (h : l.canBeAsked = true) : l ≠ .down := by
  rintro rfl
  cases h

/-- The port of a node that has been sent a notice (R72, R114). -/
def State.noticed (s : State) (n : NodeId) (base len : Nat) : Port :=
  { s.port n with
    counter := s.noticeNumber n + 1
    outbound := (s.port n).outbound ++ [.revokeNotice (s.noticeNumber n) base len] }

/-- A notice goes out on a port that is not DOWN, and its grant becomes REVOKING (R114). -/
theorem sendNotice_eq {s : State} {n : NodeId} (hl : s.link n ≠ .down) (w : WindowId) (v : Live) (g : GrantRecord) :
    s.sendNotice w v n g =
      (s.withPort n (s.noticed n g.base v.home.len)).updateGrant w n fun g =>
        { g with state := .revoking (s.noticeNumber n) s.newDeadline } := by
  have hup : (s.setPort n { s.port n with counter := s.noticeNumber n + 1 }).link n ≠ .down := by
    rw [link_setPort, if_pos rfl]
    exact hl
  rw [State.sendNotice, send_eq_answered hup]
  congr 1
  simp [State.answered, State.withPort, State.setPort, State.port, State.noticed]

/-- An unlisting joins messages to ports and changes no link state. -/
theorem unlist_appends (s : State) (w : WindowId) (n : NodeId) : s.Appends (s.unlist w n) :=
  .trans (.of_port (port_delist s w n))
    ((faultHeld_appends ..).trans (.of_port (port_of_removals (removeIfDrained_removals ..))))

section OfGrants

variable {s t : State} (h : t.beyondGrants = s.beyondGrants)
include h

theorem settings_of_grants : t.settings = s.settings := (congrArg State.settings h :)
theorem now_of_grants : t.now = s.now := (congrArg State.now h :)

end OfGrants

theorem shortcutCode_unlist {s : State} {w : WindowId} {n : NodeId} {v : Live} {g : GrantRecord}
    (hg : s.grant w n = some (v, g)) :
    (g.executing = 0 → (s.unlist w n).shortcutCode w n = 4) ∧
      (0 < g.executing → (s.unlist w n).shortcutCode w n = 3) := by
  refine ⟨fun hx => ?_, fun hx => ?_⟩
  · rw [State.shortcutCode, grant_unlist_removed hg hx]
  · rw [State.shortcutCode, unlist_draining hg hx, grant_unlisted hg]
    rfl

/-! ### REVOKE -/

theorem deadlineSlot_of_limit {now : Nat} {number : Byte} {limit : Option Nat} :
    (limit = none → deadlineSlot now (.revoking number limit) = 0) ∧
      ∀ time, limit = some time → now < time →
        deadlineSlot now (.revoking number limit) = slotOf ((time - now + 999) / 1000) := by
  refine ⟨?_, ?_⟩
  · rintro rfl
    rfl
  · rintro time rfl hlt
    exact congrArg slotOf (timeToDeadline_of_lt hlt)

section Revoke

variable {s : State} {p : Vector Word 8} {w : WindowId} {v : Live} (hn : s.names p w v) (hs : v.state ≠ .retiring)
include hn hs

theorem windowCheck_revoke : s.windowCheck .revoke p = .passed w v := windowCheck_passed hn (bne_iff_ne.2 hs)

theorem completeRevoke_badParam (h : 3 < param p 2) : completeRevoke p s = refuse s .badParam [] := by
  simp only [completeRevoke, windowCheck_revoke hn hs, nodeParam_of_gt h]

variable {n : NodeId} (h2 : param p 2 = n.val)
include h2

theorem completeRevoke_noGrant (hg : v.grant n = none) : completeRevoke p s = refuse s .noGrant [] := by
  simp only [completeRevoke, windowCheck_revoke hn hs, nodeParam_of_eq h2, hg]

variable {g : GrantRecord} (hg : v.grant n = some g)
include hg

theorem completeRevoke_draining (hst : g.state = .draining) :
    completeRevoke p s = refuse s .inProgress [slotOf 3] := by
  simp only [completeRevoke, windowCheck_revoke hn hs, nodeParam_of_eq h2, hg, hst, GrantState.code]

theorem completeRevoke_revoking {number : Byte} {limit : Option Nat} (hst : g.state = .revoking number limit) :
    completeRevoke p s =
      refuse s .inProgress [slotOf 2, slotOf number.toNat, deadlineSlot s.now (.revoking number limit)] := by
  simp only [completeRevoke, windowCheck_revoke hn hs, nodeParam_of_eq h2, hg, hst, GrantState.code]

/-- A grant of an ADMITTED or FENCING node is withdrawn by a notice (R113, R114). -/
theorem completeRevoke_noticed (hst : g.state = .listed) (hl : s.link n = .admitted ∨ s.link n = .fencing) :
    completeRevoke p s =
      carriedOut
        ((s.withPort n (s.noticed n g.base v.home.len)).withLife w
          (v.updateGrant n fun x => { x with state := .revoking (s.noticeNumber n) s.newDeadline }))
        [slotOf 2, slotOf (s.noticeNumber n).toNat, slotOf s.settings.revokeLimit.toNat, slotOf g.executing,
          slotOf g.held] := by
  have hasked : (s.link n).canBeAsked = true := canBeAsked_iff.2 hl
  have hup : s.link n ≠ .down := by rcases hl with hl | hl <;> simp [hl]
  have hlife : ((s.withPort n (s.noticed n g.base v.home.len)).window w).life = some v := hn.2.1
  simp only [completeRevoke, windowCheck_revoke hn hs, nodeParam_of_eq h2, hg, hst, hasked, if_true, State.withdraw,
    sendNotice_eq hup, State.updateGrant, updateLive_of_life hlife]

/-- A grant of any other node is unlisted at once (R115). -/
theorem completeRevoke_shortcut (hst : g.state = .listed) (ha : s.link n ≠ .admitted) (hf : s.link n ≠ .fencing) :
    completeRevoke p s =
      carriedOut (s.unlist w n) [slotOf ((s.unlist w n).shortcutCode w n), absentSlot, slotOf g.executing] := by
  have hasked : ¬(s.link n).canBeAsked = true := fun hc => (canBeAsked_iff.1 hc).elim ha hf
  simp only [completeRevoke, windowCheck_revoke hn hs, nodeParam_of_eq h2, hg, hst, if_neg hasked, State.withdraw]

end Revoke

/-- Settles O42: the checks of R113 in their order, then the notice or the shortcut; and the search of R72. -/
theorem revokeCompletes : Obligations.RevokeCompletes := by
  refine ⟨fun s p w v h hn hs => ⟨fun hbad => ?_, fun n h2 => ⟨fun hg => ?_, fun g hg => ⟨fun hst => ?_,
    fun number limit hst => ?_, fun hst hl => ?_, fun hst ha hf => ?_⟩⟩⟩,
    fun s => ⟨fun h => if_pos h, fun h => if_neg h⟩, fun s n => ?_⟩
  · exact commandCompletion_of_refuse h (completeRevoke_badParam hn hs hbad)
  · exact commandCompletion_of_refuse h (completeRevoke_noGrant hn hs h2 hg)
  · exact commandCompletion_of_refuse h (completeRevoke_draining hn hs h2 hg hst)
  · exact ⟨_, commandCompletion_of_refuse h (completeRevoke_revoking hn hs h2 hg hst), deadlineSlot_of_limit⟩
  · exact commandCompletion_of_carriedOut h (completeRevoke_noticed hn hs h2 hg hst hl)
  · exact ⟨_, commandCompletion_of_carriedOut h (completeRevoke_shortcut hn hs h2 hg hst ha hf),
      shortcutCode_unlist (grant_eq_some_iff.2 ⟨hn.2.1, hg⟩)⟩
  · obtain ⟨k, hk, hnumber, hpassed⟩ := noticeNumber_first s n
    refine ⟨k, hk, hnumber, fun w hw => ?_, fun i hi => numberHeld_iff.1 (hpassed i hi)⟩
    have hheld := numberHeld_iff.2 ⟨w, hw⟩
    simp [noticeNumber_free] at hheld

/-! ### The acknowledgement (R117) -/

section Acknowledgement

variable {s : State} {n : NodeId} {number : Byte} (hl : s.link n ≠ .down)
include hl

/-- The acknowledged grant is the one that holds the number, since no other does (R117). -/
theorem acknowledge_of_held (hd : s.NoticesDistinct) {w : WindowId} (hw : s.noticeOf n w = some number) :
    s.acknowledge n number = s.unlist w n := by
  have hfind : s.revokingWindow n number = some w := by
    obtain ⟨x, hx⟩ : ∃ x, s.revokingWindow n number = some x := Option.isSome_iff_exists.1
      (List.find?_isSome.2 ⟨w, List.mem_finRange w, by simp [hw]⟩)
    have hxn : s.noticeOf n x = some number := by simpa using List.find?_some hx
    rw [hx, hd n x w number hxn hw]
  rw [State.acknowledge, if_neg hl, hfind]

theorem acknowledge_of_unheld (hw : ∀ w, s.noticeOf n w ≠ some number) :
    s.acknowledge n number = s.flagged (nodeSource n) 0b010000 := by
  have hfind : s.revokingWindow n number = none := List.find?_eq_none.2 fun w _ => by simpa using hw w
  rw [State.acknowledge, if_neg hl, hfind]
  rfl

end Acknowledgement

/-! ### The deadline (R118, R119) -/

/-- The removal at a deadline, without the fence that the policy may add (R118). -/
def State.forced (s : State) (w : WindowId) (n : NodeId) : State := (s.unlist w n).raise (.revokeForced w)

theorem forced_eq_flagged (s : State) (w : WindowId) (n : NodeId) :
    s.forced w n = (s.unlist w n).flagged (windowSource w) 0b000100 := rfl

theorem forced_grants (s : State) (w : WindowId) (n : NodeId) : (s.forced w n).beyondGrants = s.beyondGrants := by
  rw [State.forced, raise_grants, unlist_grants]

theorem link_forced (s : State) (w : WindowId) (n m : NodeId) : (s.forced w n).link m = s.link m := by
  rw [State.forced, State.raise, setReasons_link, (unlist_appends s w n).link]

/-- A forced removal fences its node when the policy is set and the node was ADMITTED (R71, R119). -/
theorem forceRemoval_eq (s : State) (w : WindowId) (n : NodeId) :
    s.forceRemoval w n =
      if s.settings.fenceOnRevokeTimeout = true ∧ s.link n = .admitted then (s.forced w n).enterFencing n
      else s.forced w n := by
  rw [← settings_of_grants (forced_grants s w n), ← link_forced s w n n]
  rfl

/-- REVOKE_DEADLINE at the first of the times waited for (R118, log 5). -/
theorem exec_revokeDeadline_due {s : State} {w : WindowId} {n : NodeId} {t : Nat} (hr : s.resetHeld = false)
    (ht : s.deadlineOf w n = some t) (hfirst : ∀ x ∈ s.timers, t ≤ x) :
    exec (.revokeDeadline w n) s = .next (({ s with now := max s.now t } : State).forceRemoval w n) := by
  simp only [exec, execRevokeDeadline, event_free hr, ht, reach_of_first hfirst]

/-- Settles O43: the acknowledgement by the number it carries, the deadline by the policy and the node's link. -/
theorem pendingRevocationEnds : Obligations.PendingRevocationEnds := by
  refine ⟨fun s n number hr hl => ⟨fun w hd hw => ?_, fun hw => ?_⟩,
    fun s a w n hr => ⟨fun ht => ?_, fun t ht hfirst ha => ⟨fun hc => ?_, fun hp hl => ?_⟩⟩⟩
  · simp only [exec, execRevokeAck, event_free hr, acknowledge_of_held hl hd hw]
  · simp only [exec, execRevokeAck, event_free hr, acknowledge_of_unheld hl hw]
  · simp only [exec, execRevokeDeadline, event_free hr, ht]
  · have hnot : ¬(s.settings.fenceOnRevokeTimeout = true ∧ s.link n = .admitted) := by
      rintro ⟨hp, hl⟩
      rcases hc with hc | hc
      · simp [hp] at hc
      · exact hc hl
    rw [exec_revokeDeadline_due hr ht hfirst, ha, ← forced_eq_flagged]
    exact congrArg _ ((forceRemoval_eq ..).trans (if_neg hnot))
  · rw [exec_revokeDeadline_due hr ht hfirst, ha, ← forced_eq_flagged]
    exact congrArg _ ((forceRemoval_eq ..).trans (if_pos ⟨hp, hl⟩))

end Sys2Proof.Machine
end

section
/-! SUPPORT. A retirement under way: what each of its steps leaves to the nodes whose turn it is not, and what becomes
of its window (R125, R126). -/

namespace Sys2Proof.Machine

/-! ### A node's grant of a window -/

/-- The record of a node's grant of a window, without the window. -/
def State.grantRecord (s : State) (w : WindowId) (n : NodeId) : Option GrantRecord :=
  (s.window w).life.bind fun v => v.grant n

section GrantRecords

variable {s : State} {w : WindowId} {n : NodeId}

theorem grantRecord_eq : s.grantRecord w n = (s.grant w n).map Prod.snd := by
  unfold State.grantRecord State.grant
  cases (s.window w).life with
  | none => rfl
  | some v =>
    simp only [Option.bind_some]
    cases v.grant n <;> rfl

theorem grantRecord_eq_none_iff : s.grantRecord w n = none ↔ s.grant w n = none := by
  rw [grantRecord_eq, Option.map_eq_none_iff]

theorem grantRecord_eq_some_iff {g : GrantRecord} : s.grantRecord w n = some g ↔ ∃ v, s.grant w n = some (v, g) := by
  simp [grantRecord_eq]

theorem grantRecord_of_grant {v : Live} {g : GrantRecord} (hg : s.grant w n = some (v, g)) :
    s.grantRecord w n = some g := grantRecord_eq_some_iff.2 ⟨v, hg⟩

theorem grantRecord_of_life {v : Live} (hv : (s.window w).life = some v) : s.grantRecord w n = v.grant n := by
  rw [State.grantRecord, hv, Option.bind_some]

/-- The notice number of a grant is that of its record. -/
theorem noticeOf_of_grantRecord : s.noticeOf n w = (s.grantRecord w n).bind fun g => g.state.notice := by
  rw [noticeOf_eq, State.grantRecord, Option.bind_assoc]
  rfl

theorem grantRecord_updateLive {f : Live → Live} (hf : ∀ v, (f v).grant n = v.grant n) :
    (s.updateLive w f).grantRecord w n = s.grantRecord w n := by
  rw [State.grantRecord, life_updateLive, if_pos rfl, Option.bind_map]
  exact congrArg _ (funext hf)

theorem grantRecord_updateGrant {f : GrantRecord → GrantRecord} (hf : ∀ g, (f g).node = g.node) :
    (s.updateGrant w n f).grantRecord w n = (s.grantRecord w n).map f := by
  have hgrant : ∀ v : Live, (v.updateGrant n f).grant n = (v.grant n).map f := fun v =>
    (grant_updateGrant v n n f hf).trans (if_pos rfl)
  rw [State.grantRecord, State.updateGrant, life_updateLive, if_pos rfl, State.grantRecord]
  cases (s.window w).life with
  | none => rfl
  | some v => exact hgrant v

end GrantRecords

/-! ### What a step leaves to a node -/

/-- From `s` to `t` a node keeps its grant of a window, its port, map, queue and tags, and every pending flag stays. -/
structure State.Spares (w : WindowId) (n : NodeId) (s t : State) : Prop where
  grant : t.grantRecord w n = s.grantRecord w n
  port : t.port n = s.port n
  map : t.map n = s.map n
  hold : t.hold n = s.hold n
  tag : ∀ u, t.tag n u = s.tag n u
  flags : s.KeepsFlags t

namespace State.Spares

variable {w : WindowId} {n : NodeId} {s t u : State}

theorem refl (s : State) : s.Spares w n s := ⟨rfl, rfl, rfl, rfl, fun _ => rfl, .refl s⟩

theorem trans (h : s.Spares w n t) (h' : t.Spares w n u) : s.Spares w n u :=
  ⟨h'.grant.trans h.grant, h'.port.trans h.port, h'.map.trans h.map, h'.hold.trans h.hold,
    fun x => (h'.tag x).trans (h.tag x), h.flags.trans h'.flags⟩

theorem updateLive (s : State) {f : Live → Live} (hf : ∀ v, (f v).grant n = v.grant n) :
    s.Spares w n (s.updateLive w f) :=
  ⟨grantRecord_updateLive hf, updateLive_port .., updateLive_map .., congrFun (updateLive_hold ..) n,
    updateLive_tag s w f n, updateLive_keepsFlags ..⟩

theorem raise (s : State) (f : Flag) : s.Spares w n (s.raise f) :=
  ⟨rfl, rfl, rfl, rfl, fun _ => rfl, raise_keepsFlags ..⟩

/-- The completion of a retirement takes no grant from any node, since none is left (R126). -/
theorem retireIfEmpty (s : State) : s.Spares w n (s.retireIfEmpty w) := by
  have hrest := retireIfEmpty_removals s w
  refine ⟨?_, congrFun (port_of_removals hrest) n, congrFun (map_of_removals hrest) n,
    congrFun (hold_of_removals hrest) n, fun u => congrFun₂ (tag_of_removals hrest) n u, retireIfEmpty_keepsFlags ..⟩
  unfold State.retireIfEmpty
  split
  · rfl
  · rename_i v hv
    split
    · rename_i hc
      rw [grantRecord_of_life hv, State.grantRecord, window_completeRetirement, if_pos rfl, Live.grant, hc.2]
      rfl
    · rfl

variable {m : NodeId} (hm : n ≠ m)
include hm

theorem updateGrant (s : State) {f : GrantRecord → GrantRecord} (hf : ∀ g, (f g).node = g.node) :
    s.Spares w n (s.updateGrant w m f) :=
  updateLive s fun v => (grant_updateGrant v m n f hf).trans (if_neg hm)

theorem setMap (s : State) (l : List WindowId) : s.Spares w n (s.setMap m l) :=
  ⟨rfl, rfl, (map_setMap ..).trans (if_neg hm.symm), rfl, fun _ => rfl, .of_attention rfl⟩

theorem withPort (s : State) (p : Port) : s.Spares w n (s.withPort m p) :=
  ⟨rfl, (port_setPort ..).trans (if_neg hm.symm), rfl, rfl, fun _ => rfl, .of_attention rfl⟩

theorem strike (s : State) : s.Spares w n (s.strike w m) :=
  (updateLive s fun v => (grant_filter_ne v m n).trans (if_neg hm)).trans (raise ..)

theorem removeIfDrained (s : State) : s.Spares w n (s.removeIfDrained w m) := by
  unfold State.removeIfDrained
  split
  · exact refl s
  · split
    · exact (strike hm s).trans (retireIfEmpty _)
    · exact refl s

/-- Faults are answered on the port of their own node alone. -/
theorem port_faultEntry (s : State) (r : FaultReason) (e : HoldEntry) : (s.faultEntry m r e).port n = s.port n := by
  have hlow : (s.lowerHeld e.window m).port n = s.port n := updateLive_port ..
  unfold State.faultEntry State.faultTag
  split
  · exact hlow
  · rw [State.sendFault, port_captureFault, port_send, if_neg fun hc => hm hc.1.symm, setTag_port, hlow]

theorem port_faultHeld (s : State) (hit : HoldEntry → Bool) (r : FaultReason) :
    (s.faultHeld m hit r).port n = s.port n := by
  have hfold : ∀ (l : List HoldEntry) (t : State), (l.foldl (State.faultEntry m r) t).port n = t.port n := by
    intro l
    induction l with
    | nil => exact fun _ => rfl
    | cons e l ih => exact fun t => (ih _).trans (port_faultEntry hm t r e)
  exact hfold _ _

theorem faultHeld (s : State) (hit : HoldEntry → Bool) (r : FaultReason) : s.Spares w n (s.faultHeld m hit r) where
  grant := by
    rw [State.grantRecord, window_faultHeld, Option.bind_map]
    exact congrArg _ (funext fun v => grant_dropHeld_of_ne v hm _)
  port := port_faultHeld hm s hit r
  map := congrFun (map_of_answers (faultHeld_answers ..)) n
  hold := hold_faultHeld_of_ne hm
  tag u := (tag_faultHeld ..).trans (if_neg fun hc => hm hc.1.symm)
  flags := .trans (.of_attention (t := s.setHold m ((s.hold m).filter fun e => !hit e)) rfl)
    (foldl_faultEntry_keepsFlags ..)

theorem unlist (s : State) : s.Spares w n (s.unlist w m) := by
  have hdelist : s.Spares w n (s.delist w m) := (setMap hm s _).trans (updateGrant hm _ fun _ => rfl)
  rw [unlist_eq]
  exact (hdelist.trans (faultHeld hm _ _ _)).trans (removeIfDrained hm _)

/-- The withdrawal of another node's grant (R113 to R115). -/
theorem withdraw (s : State) (v : Live) (g : GrantRecord) : s.Spares w n (s.withdraw w v m g) := by
  unfold State.withdraw
  split
  · rename_i hasked
    rw [sendNotice_eq (up_of_asked hasked)]
    exact (withPort hm s _).trans (updateGrant hm _ fun _ => rfl)
  · exact unlist hm s

theorem retireGrant (s : State) : s.Spares w n (State.retireGrant w s m) := by
  unfold State.retireGrant
  split
  · exact refl s
  · split
    · exact withdraw hm s _ _
    · exact refl s
    · exact refl s

end State.Spares

/-! ### The turns of the nodes -/

/-- Among the steps of a fold, each on the account of another node, there is that of a node: up to it and from it on the
steps of the others relate the states. -/
theorem foldl_turn {f : State → NodeId → State} {P : State → Prop} {n : NodeId} {w : WindowId}
    (hP : ∀ (s : State) m, P s → P (f s m)) (hstep : ∀ (s : State) m, n ≠ m → s.Spares w n (f s m))
    {l : List NodeId} (hl : l.Nodup) (hn : n ∈ l) {s : State} (hs : P s) :
    ∃ a, P a ∧ s.Spares w n a ∧ (f a n).Spares w n (l.foldl f s) := by
  have hothers : ∀ (l : List NodeId), n ∉ l → ∀ s : State, s.Spares w n (l.foldl f s) := by
    intro l
    induction l with
    | nil => exact fun _ => .refl
    | cons m l ih =>
      intro hn s
      exact (hstep s m (List.ne_of_not_mem_cons hn)).trans (ih (List.not_mem_of_not_mem_cons hn) _)
  induction l generalizing s with
  | nil => simp at hn
  | cons m l ih =>
    obtain ⟨hml, hl⟩ := List.nodup_cons.1 hl
    by_cases hm : n = m
    · subst hm
      exact ⟨s, hs, .refl s, hothers l hml _⟩
    · obtain ⟨a, ha, hbefore, hafter⟩ := ih hl ((List.mem_cons.1 hn).resolve_left hm) (hP s m hs)
      exact ⟨a, ha, (hstep s m hm).trans hbefore, hafter⟩

theorem foldl_keeps {f : State → NodeId → State} {P : State → Prop} (hP : ∀ s m, P s → P (f s m)) (l : List NodeId)
    {s : State} (hs : P s) : P (l.foldl f s) := by
  induction l generalizing s with
  | nil => exact hs
  | cons m l ih => exact ih (hP s m hs)

/-! ### The window of a retirement -/

/-- What of a window in use its grants' withdrawal does not touch. -/
def Live.course (v : Live) : LiveState × Extent × Nat × Bool := (v.state, v.home, v.executing, v.quietPending)

/-- The retirement of a window that held `v` is under way, or over, in `t` (R125, R126). -/
inductive State.Retires (s : State) (w : WindowId) (v : Live) (t : State) : Prop where
  | underWay (u : Live) (window : t.window w = { generation := (s.window w).generation, life := some u })
      (course : u.course = (.retiring, v.home, v.executing, false)) (free : t.freeList = s.freeList)
  | freed (window : t.window w = { generation := (s.window w).generation + 1, life := none })
      (flag : t.isPending (.retireDone w) = true) (free : t.freeList = Machine.release v.home s.freeList)

namespace State.Retires

variable {s t : State} {w : WindowId} {v : Live} (h : s.Retires w v t)
include h

theorem of_same {t' : State} (hw : t'.window w = t.window w) (hf : t'.freeList = t.freeList)
    (hflags : t.KeepsFlags t') : s.Retires w v t' := by
  cases h with
  | underWay u window course free => exact .underWay u (hw.trans window) course (hf.trans free)
  | freed window flag free => exact .freed (hw.trans window) (hflags.pending _ flag) (hf.trans free)

theorem updateLive {f : Live → Live} (hf : ∀ u, (f u).course = u.course) : s.Retires w v (t.updateLive w f) := by
  have hw := window_updateLive t w w f
  rw [if_pos rfl] at hw
  cases h with
  | underWay u window course free =>
    rw [window] at hw
    exact .underWay (f u) hw ((hf u).trans course) ((freeList_updateLive ..).trans free)
  | freed window flag free =>
    rw [window] at hw
    exact .freed hw ((updateLive_keepsFlags ..).pending _ flag) ((freeList_updateLive ..).trans free)

theorem updateGrant (n : NodeId) (f : GrantRecord → GrantRecord) : s.Retires w v (t.updateGrant w n f) :=
  h.updateLive fun _ => rfl

theorem withPort (n : NodeId) (p : Port) : s.Retires w v (t.withPort n p) := h.of_same rfl rfl (.of_attention rfl)

theorem raise (f : Flag) : s.Retires w v (t.raise f) := h.of_same rfl rfl (raise_keepsFlags ..)

/-- The window is free once no grant is left, and until then it has one (R125 step 4, R126). -/
theorem completed :
    s.Retires w v (t.retireIfEmpty w) ∧ ∀ u, ((t.retireIfEmpty w).window w).life = some u → u.grants ≠ [] := by
  cases h with
  | underWay u window course free =>
    obtain ⟨hstate, hhome, -, -⟩ : u.state = .retiring ∧ u.home = v.home ∧ u.executing = v.executing ∧
        u.quietPending = false := by simpa [Live.course] using course
    by_cases hg : u.grants = []
    · have hdone : t.retireIfEmpty w = t.completeRetirement w u := by
        simp only [State.retireIfEmpty, window]
        exact if_pos ⟨hstate, hg⟩
      have hwindow : (t.completeRetirement w u).window w =
          { generation := (s.window w).generation + 1, life := none } := by
        rw [window_completeRetirement, if_pos rfl, window]
      rw [hdone]
      refine ⟨.freed hwindow (isPending_retireDone ..) ?_, fun x hx => ?_⟩
      · rw [← free, ← hhome]
        rfl
      · rw [hwindow] at hx
        cases hx
    · have hsame : t.retireIfEmpty w = t := by
        simp only [State.retireIfEmpty, window]
        exact if_neg fun hc => hg hc.2
      rw [hsame]
      refine ⟨.underWay u window course free, fun x hx => ?_⟩
      rw [window] at hx
      exact Option.some.inj hx ▸ hg
  | freed window flag free =>
    have hsame : t.retireIfEmpty w = t := by simp only [State.retireIfEmpty, window]
    rw [hsame]
    refine ⟨.freed window flag free, fun x hx => ?_⟩
    rw [window] at hx
    cases hx

theorem removeIfDrained (n : NodeId) : s.Retires w v (t.removeIfDrained w n) := by
  have hcut : s.Retires w v (t.updateLive w fun u => { u with grants := u.grants.filter fun g => g.node != n }) :=
    h.updateLive fun _ => rfl
  have hstrike : s.Retires w v (t.strike w n) := hcut.raise _
  unfold State.removeIfDrained
  split
  · exact h
  · split
    · exact hstrike.completed.1
    · exact h

theorem faultHeld (n : NodeId) (hit : HoldEntry → Bool) (r : FaultReason) :
    s.Retires w v (t.faultHeld n hit r) := by
  have hflags : t.KeepsFlags (t.faultHeld n hit r) :=
    .trans (.of_attention (t := t.setHold n ((t.hold n).filter fun e => !hit e)) rfl)
      (foldl_faultEntry_keepsFlags ..)
  have hfree := freeList_of_answers (faultHeld_answers t n hit r)
  have hw := window_faultHeld (s := t) (n := n) (hit := hit) (r := r) w
  cases h with
  | underWay u window course free =>
    rw [window] at hw
    exact .underWay _ hw course (hfree.trans free)
  | freed window flag free =>
    rw [window] at hw
    exact .freed hw (hflags.pending _ flag) (hfree.trans free)

theorem unlist (n : NodeId) : s.Retires w v (t.unlist w n) := by
  have hmap : s.Retires w v (t.setMap n ((t.map n).filter fun x => x != w)) := h.of_same rfl rfl (.of_attention rfl)
  have hdelist : s.Retires w v (t.delist w n) := hmap.updateGrant n _
  rw [unlist_eq]
  exact (hdelist.faultHeld n _ _).removeIfDrained n

theorem retireGrant (n : NodeId) : s.Retires w v (State.retireGrant w t n) := by
  unfold State.retireGrant
  split
  · exact h
  · split
    · unfold State.withdraw
      split
      · rename_i hasked
        rw [sendNotice_eq (up_of_asked hasked)]
        exact (h.withPort n _).updateGrant n _
      · exact h.unlist n
    · exact h
    · exact h

/-- While a node has a grant the retirement is under way, and the window has its home. -/
theorem home_of_grant {n : NodeId} {u : Live} {g : GrantRecord} (hg : t.grant w n = some (u, g)) :
    u.home = v.home := by
  cases h with
  | underWay x window course free =>
    have hx : some x = some u := (congrArg WindowRecord.life window).symm.trans (grant_eq_some_iff.1 hg).1
    rw [← Option.some.inj hx]
    exact congrArg (fun c => c.2.1) course
  | freed window flag free =>
    rw [grant_of_free (congrArg WindowRecord.life window)] at hg
    cases hg

end State.Retires

end Sys2Proof.Machine
end

section
/-! SUPPORT. RETIRE: the held entries faulted, the grants withdrawn node by node, and the outcomes it reports (R125 to
R127). -/

namespace Sys2Proof.Machine

/-! ### The stages of R125 -/

/-- Step 1: the window is RETIRING. -/
def State.retireBegun (s : State) (w : WindowId) : State :=
  s.updateLive w fun v => { v with state := .retiring, quietPending := false }

/-- Step 2 for one node: the entries it holds for the window leave with WINDOW_RETIRED. -/
def State.retireHeld (w : WindowId) (s : State) (n : NodeId) : State :=
  s.faultHeld n (fun e => e.window == w) .windowRetired

/-- Up to step 2. -/
def State.retireFaulted (s : State) (w : WindowId) : State := allNodes.foldl (State.retireHeld w) (s.retireBegun w)

/-- Up to step 3: the LISTED grants are withdrawn. -/
def State.retireWithdrawn (s : State) (w : WindowId) : State := allNodes.foldl (State.retireGrant w) (s.retireFaulted w)

theorem retire_eq (s : State) (w : WindowId) : s.retire w = (s.retireWithdrawn w).retireIfEmpty w := rfl

theorem allNodes_nodup : allNodes.Nodup := by decide

/-! ### What every stage keeps -/

/-- A retirement of `w` begun in `s` has come to `t`: beyond grants nothing has changed, and no notice of another
window. -/
structure State.Retiring (s : State) (w : WindowId) (v : Live) (t : State) : Prop where
  rest : t.beyondGrants = s.beyondGrants
  notices : ∀ n x, x ≠ w → t.noticeOf n x = s.noticeOf n x
  course : s.Retires w v t

theorem noticeOf_of_window {s t : State} {x : WindowId} (h : t.window x = s.window x) (n : NodeId) :
    t.noticeOf n x = s.noticeOf n x := by
  rw [noticeOf_eq, h, noticeOf_eq]

theorem window_updateLive_of_ne {w x : WindowId} (hx : x ≠ w) (s : State) (f : Live → Live) :
    (s.updateLive w f).window x = s.window x := (window_updateLive ..).trans (if_neg hx.symm)

theorem window_retireGrant_of_ne {w x : WindowId} (hx : x ≠ w) (s : State) (n : NodeId) :
    (State.retireGrant w s n).window x = s.window x := by
  unfold State.retireGrant
  split
  · rfl
  · split
    · unfold State.withdraw
      split
      · rename_i hasked
        rw [sendNotice_eq (up_of_asked hasked)]
        exact window_updateLive_of_ne hx ..
      · exact window_unlist_of_other hx n
    · rfl
    · rfl

theorem window_retireIfEmpty_of_ne {w x : WindowId} (hx : x ≠ w) (s : State) :
    (s.retireIfEmpty w).window x = s.window x := by
  unfold State.retireIfEmpty
  split
  · rfl
  · split
    · exact (window_completeRetirement ..).trans (if_neg hx.symm)
    · rfl

namespace State.Retiring

variable {s t : State} {w : WindowId} {v : Live}

theorem begun (hv : (s.window w).life = some v) : s.Retiring w v (s.retireBegun w) where
  rest := updateLive_grants ..
  notices n x hx := noticeOf_of_window (window_updateLive_of_ne hx ..) n
  course := by
    refine .underWay { v with state := .retiring, quietPending := false } ?_ rfl (freeList_updateLive ..)
    rw [State.retireBegun, window_updateLive, if_pos rfl, hv]
    rfl

variable (h : s.Retiring w v t)
include h

theorem retireHeld (n : NodeId) : s.Retiring w v (State.retireHeld w t n) where
  rest := (faultHeld_grants ..).trans h.rest
  notices m x hx := (congrFun₂ (faultHeld_noticeOf ..) m x).trans (h.notices m x hx)
  course := h.course.faultHeld n _ _

theorem retireGrant (n : NodeId) : s.Retiring w v (State.retireGrant w t n) where
  rest := (retireGrant_grants ..).trans h.rest
  notices m x hx := (noticeOf_of_window (window_retireGrant_of_ne hx ..) m).trans (h.notices m x hx)
  course := h.course.retireGrant n

end State.Retiring

/-! ### The held entries (R125 step 2) -/

section Faulted

variable {s : State} {w : WindowId} {v : Live}

/-- WINDOW_RETIRED is not captured (R92). -/
theorem captures_retireHeld (s : State) (n : NodeId) : (State.retireHeld w s n).captures = s.captures := by
  have hentry : ∀ (t : State) (e : HoldEntry), (t.faultEntry n .windowRetired e).captures = t.captures := by
    intro t e
    have hlow : (t.lowerHeld e.window n).captures = t.captures := updateLive_captures ..
    unfold State.faultEntry State.faultTag
    split
    · exact hlow
    · exact (captures_of_register (send_register ..)).trans hlow
  have hfold : ∀ (l : List HoldEntry) (t : State),
      (l.foldl (State.faultEntry n .windowRetired) t).captures = t.captures := by
    intro l
    induction l with
    | nil => exact fun _ => rfl
    | cons e l ih => exact fun t => (ih _).trans (hentry t e)
  exact hfold _ _

/-- What stands while the held entries of a retired window are faulted. -/
structure State.RetireFaulting (s : State) (w : WindowId) (v : Live) (t : State) : Prop extends s.Retiring w v t where
  captures : t.captures = s.captures
  appends : s.Appends t
  agree : s.TagsAgree → t.TagsAgree
  bounded : s.HoldsBounded → t.HoldsBounded

theorem State.RetireFaulting.retireHeld {t : State} (h : s.RetireFaulting w v t) (n : NodeId) :
    s.RetireFaulting w v (State.retireHeld w t n) where
  toRetiring := h.toRetiring.retireHeld n
  captures := (captures_retireHeld t n).trans h.captures
  appends := h.appends.trans (faultHeld_appends ..)
  agree ha := (h.agree ha).faultHeld n _ _
  bounded hb := (h.bounded hb).faultHeld n _ _

variable (hv : (s.window w).life = some v)
include hv

theorem retireFaulting_begun : s.RetireFaulting w v (s.retireBegun w) where
  toRetiring := .begun hv
  captures := updateLive_captures ..
  appends := updateLive_appends ..
  agree ha := ha.of_register (updateLive_register ..)
  bounded hb n := by
    rw [State.retireBegun, updateLive_hold, State.link, updateLive_port]
    exact hb n

theorem retireFaulting_faulted : s.RetireFaulting w v (s.retireFaulted w) :=
  foldl_keeps (P := s.RetireFaulting w v) (fun _ n ht => ht.retireHeld n) allNodes (retireFaulting_begun hv)

/-- The turn of a node's entries: before it and after it nothing of the node changes. -/
theorem retireHeld_turn (n : NodeId) : ∃ c, s.RetireFaulting w v c ∧ s.Spares w n c ∧
    (State.retireHeld w c n).Spares w n (s.retireFaulted w) := by
  obtain ⟨c, hc, hbefore, hafter⟩ := foldl_turn (P := s.RetireFaulting w v) (w := w) (n := n)
    (fun _ m ht => ht.retireHeld m) (fun t m hm => State.Spares.faultHeld hm t _ _) allNodes_nodup (mem_allNodes n)
    (retireFaulting_begun hv)
  have hbegun : s.Spares w n (s.retireBegun w) := .updateLive s fun _ => rfl
  exact ⟨c, hc, hbegun.trans hbefore, hafter⟩

theorem hold_retireFaulted (n : NodeId) : (s.retireFaulted w).hold n = (s.hold n).filter fun e => e.window != w := by
  obtain ⟨c, -, hbefore, hafter⟩ := retireHeld_turn hv n
  rw [hafter.hold, State.retireHeld, hold_faultHeld_same, hbefore.hold]
  rfl

theorem map_retireFaulted (n : NodeId) : (s.retireFaulted w).map n = s.map n := by
  obtain ⟨c, -, hbefore, hafter⟩ := retireHeld_turn hv n
  rw [hafter.map, State.retireHeld, map_of_answers (faultHeld_answers ..), hbefore.map]

/-- A grant loses its held entries and nothing else (R11). -/
theorem grantRecord_retireFaulted (n : NodeId) :
    ∃ k, (s.retireFaulted w).grantRecord w n = (v.grant n).map fun g => { g with held := g.held - k } := by
  obtain ⟨c, -, hbefore, hafter⟩ := retireHeld_turn hv n
  refine ⟨(((c.hold n).filter fun e => e.window == w).filter fun e => e.window == w).length, ?_⟩
  rw [hafter.grant, ← grantRecord_of_life hv, ← hbefore.grant, State.retireHeld, State.grantRecord, window_faultHeld,
    State.grantRecord]
  cases (c.window w).life with
  | none => rfl
  | some u => exact grant_dropHeld u n _

/-- The completions go out in queue order (R91, R106). -/
theorem outbound_retireFaulted (ha : s.TagsAgree) (hb : s.HoldsBounded) (n : NodeId) :
    ((s.retireFaulted w).port n).outbound = (s.port n).outbound ++
      (s.heldUnder w n).map fun e => Message.completion e.tag (.fault .windowRetired) := by
  obtain ⟨c, hc, hbefore, hafter⟩ := retireHeld_turn hv n
  rw [hafter.port, State.retireHeld, port_faultHeld_of_bounded (hc.agree ha) (hc.bounded hb), Function.update_self,
    hbefore.port, hbefore.hold]
  rfl

theorem tag_retireFaulted (n : NodeId) : ∀ e ∈ s.heldUnder w n, (s.retireFaulted w).tag n e.tag = none := by
  intro e he
  obtain ⟨c, -, hbefore, hafter⟩ := retireHeld_turn hv n
  rw [hafter.tag, State.retireHeld, tag_faultHeld, hbefore.hold, if_pos ⟨rfl, List.mem_map_of_mem he⟩]

end Faulted

/-! ### The turn of one grant (R125 step 3) -/

section Turn

variable {a : State} {w : WindowId} {n : NodeId} {u : Live} {g : GrantRecord}

theorem retireGrant_of_none (hg : a.grant w n = none) : State.retireGrant w a n = a := by
  simp only [State.retireGrant, hg]

/-- A grant that is withdrawn already stays as it is. -/
theorem retireGrant_of_withdrawn (hg : a.grant w n = some (u, g)) (hst : g.state ≠ .listed) :
    State.retireGrant w a n = a := by
  simp only [State.retireGrant, hg]
  split
  · rename_i hl
    exact absurd hl hst
  · rfl
  · rfl

theorem retireGrant_of_listed (hg : a.grant w n = some (u, g)) (hst : g.state = .listed) :
    State.retireGrant w a n = a.withdraw w u n g := by
  simp only [State.retireGrant, hg, hst]

/-- A LISTED grant of a node that can be asked becomes REVOKING with a notice (R114). -/
theorem retireGrant_of_asked (hg : a.grant w n = some (u, g)) (hst : g.state = .listed)
    (hasked : (a.link n).canBeAsked = true) :
    State.retireGrant w a n =
      (a.withPort n (a.noticed n g.base u.home.len)).updateGrant w n fun g =>
        { g with state := .revoking (a.noticeNumber n) a.newDeadline } := by
  rw [retireGrant_of_listed hg hst, State.withdraw, if_pos hasked, sendNotice_eq (up_of_asked hasked)]

/-- A LISTED grant of any other node is unlisted (R115). -/
theorem retireGrant_of_unasked (hg : a.grant w n = some (u, g)) (hst : g.state = .listed)
    (hasked : (a.link n).canBeAsked = false) : State.retireGrant w a n = a.unlist w n := by
  rw [retireGrant_of_listed hg hst, State.withdraw, hasked]
  rfl

variable (hh : ∀ e ∈ a.hold n, e.window ≠ w)
include hh

/-- With nothing held under the grant an unlisting faults nothing. -/
theorem unlist_of_unheld : a.unlist w n = (a.delist w n).removeIfDrained w n := by
  rw [unlist_eq, faultHeld_of_none]
  intro e he
  rw [hold_delist] at he
  exact beq_false_of_ne (hh e he)

theorem register_retireGrant : (State.retireGrant w a n).register = a.register := by
  unfold State.retireGrant
  split
  · rfl
  · split
    · unfold State.withdraw
      split
      · exact sendNotice_register ..
      · rw [unlist_of_unheld hh, removeIfDrained_register, delist_register]
    · rfl
    · rfl

theorem port_unlist_of_unheld : (a.unlist w n).port n = a.port n := by
  rw [unlist_of_unheld hh, port_of_removals (removeIfDrained_removals ..), port_delist]

omit hh in
theorem map_unlist_filtered : (a.unlist w n).map n = (a.map n).filter fun x => x != w := by
  rw [map_of_removals (unlist_removals_unlisted a w n), map_unlisted, if_pos rfl]

end Turn

/-! ### The retirement as a whole -/

/-- What stands while the grants of a retired window are withdrawn. -/
structure State.RetireWithdrawing (s : State) (w : WindowId) (v : Live) (t : State) : Prop
    extends s.Retiring w v t where
  register : t.register = (s.retireFaulted w).register

/-- The state in which a retirement comes to a node's grant: of the node only the held entries have changed. -/
structure State.AtTurn (s : State) (w : WindowId) (v : Live) (n : NodeId) (a : State) : Prop
    extends s.Retiring w v a where
  unheld : ∀ e ∈ a.hold n, e.window ≠ w
  grant : ∃ k, a.grantRecord w n = (v.grant n).map fun g => { g with held := g.held - k }
  port : a.port n = (s.retireFaulted w).port n
  map : a.map n = s.map n
  ends : (State.retireGrant w a n).Spares w n (s.retire w)

section Whole

variable {s : State} {w : WindowId} {v : Live} (hv : (s.window w).life = some v)
include hv

theorem unheld_of_register {t : State} (h : t.register = (s.retireFaulted w).register) (n : NodeId) :
    ∀ e ∈ t.hold n, e.window ≠ w := by
  intro e he
  rw [hold_of_register h, hold_retireFaulted hv] at he
  simpa using (List.mem_filter.1 he).2

theorem retireWithdrawing_faulted : s.RetireWithdrawing w v (s.retireFaulted w) where
  toRetiring := (retireFaulting_faulted hv).toRetiring
  register := rfl

theorem retireWithdrawing_step {t : State} (h : s.RetireWithdrawing w v t) (n : NodeId) :
    s.RetireWithdrawing w v (State.retireGrant w t n) where
  toRetiring := h.toRetiring.retireGrant n
  register := (register_retireGrant (unheld_of_register hv h.register n)).trans h.register

theorem retireWithdrawing_withdrawn : s.RetireWithdrawing w v (s.retireWithdrawn w) :=
  foldl_keeps (P := s.RetireWithdrawing w v) (fun _ n ht => retireWithdrawing_step hv ht n) allNodes
    (retireWithdrawing_faulted hv)

/-- The hold queues, tags and capture records are those that the faulted entries leave. -/
theorem register_retire : (s.retire w).register = (s.retireFaulted w).register := by
  rw [retire_eq, retireIfEmpty_register, (retireWithdrawing_withdrawn hv).register]

theorem retire_turn (n : NodeId) : ∃ a, s.AtTurn w v n a := by
  obtain ⟨a, ha, hbefore, hafter⟩ := foldl_turn (P := s.RetireWithdrawing w v) (w := w) (n := n)
    (fun _ m ht => retireWithdrawing_step hv ht m) (fun t m hm => State.Spares.retireGrant hm t) allNodes_nodup
    (mem_allNodes n) (retireWithdrawing_faulted hv)
  obtain ⟨k, hk⟩ := grantRecord_retireFaulted hv n
  exact ⟨a, { toRetiring := ha.toRetiring
              unheld := unheld_of_register hv ha.register n
              grant := ⟨k, hbefore.grant.trans hk⟩
              port := hbefore.port
              map := hbefore.map.trans (map_retireFaulted hv n)
              ends := hafter.trans (.retireIfEmpty _) }⟩

end Whole

/-! ### What becomes of a node's grant -/

/-- The search for a free number sees the numbers that the node's grants hold (R72). -/
theorem noticeNumber_congr {s t : State} {n : NodeId} (hc : (t.port n).counter = (s.port n).counter)
    (h : ∀ w, t.noticeOf n w = s.noticeOf n w) : t.noticeNumber n = s.noticeNumber n := by
  have hheld : t.numberHeld n = s.numberHeld n := by
    funext number
    simp only [State.numberHeld, h]
  have hsearch : ∀ k c, t.freeNumber n k c = s.freeNumber n k c := by
    intro k
    induction k with
    | zero => exact fun _ => rfl
    | succ k ih =>
      intro c
      unfold State.freeNumber
      rw [hheld, ih]
  rw [State.noticeNumber, State.noticeNumber, hc, hsearch]

/-- The notice that a retirement sends a node (R114, R125). -/
def State.retireNotices (s : State) (v : Live) (n : NodeId) : List Message :=
  match v.grant n with
  | none => []
  | some g =>
    if g.state = .listed ∧ (s.link n).canBeAsked = true then
      [.revokeNotice (s.noticeNumber n) g.base v.home.len]
    else []

section Fates

variable {s a : State} {w : WindowId} {v : Live} {n : NodeId} (hv : (s.window w).life = some v)
  (ha : s.AtTurn w v n a)
include hv ha

theorem link_atTurn : a.link n = s.link n := by
  rw [State.link, ha.port]
  exact (retireFaulting_faulted hv).appends.link n

theorem noticeNumber_atTurn : a.noticeNumber n = s.noticeNumber n := by
  obtain ⟨more, hmore⟩ := (retireFaulting_faulted hv).appends.tails n
  obtain ⟨k, hk⟩ := ha.grant
  refine noticeNumber_congr (by rw [ha.port, hmore]) fun x => ?_
  by_cases hx : x = w
  · rw [hx, noticeOf_of_grantRecord, noticeOf_of_grantRecord, hk, grantRecord_of_life hv, Option.bind_map]
    rfl
  · exact ha.notices n x hx

omit hv in
theorem newDeadline_atTurn : a.newDeadline = s.newDeadline := by
  rw [State.newDeadline, settings_of_grants ha.rest, now_of_grants ha.rest]
  rfl

omit hv in
theorem grant_atTurn {g : GrantRecord} (hg : v.grant n = some g) :
    ∃ u k, a.grant w n = some (u, { g with held := g.held - k }) := by
  obtain ⟨k, hk⟩ := ha.grant
  rw [hg] at hk
  obtain ⟨u, hu⟩ := grantRecord_eq_some_iff.1 hk
  exact ⟨u, k, hu⟩

end Fates

section Outcomes

variable {s : State} {w : WindowId} {v : Live} {n : NodeId} (hv : (s.window w).life = some v)
include hv

/-- A node without a grant is told nothing (R127). -/
theorem retire_none (hg : v.grant n = none) :
    (s.retire w).grant w n = none ∧ (s.retire w).port n = (s.retireFaulted w).port n := by
  obtain ⟨a, ha⟩ := retire_turn hv n
  have hnone : a.grantRecord w n = none := by
    obtain ⟨k, hk⟩ := ha.grant
    rw [hk, hg]
    rfl
  have hends := ha.ends
  rw [retireGrant_of_none (grantRecord_eq_none_iff.1 hnone)] at hends
  exact ⟨grantRecord_eq_none_iff.1 (hends.grant.trans hnone), hends.port.trans ha.port⟩

variable {g : GrantRecord} (hg : v.grant n = some g)
include hg

/-- A REVOKING or DRAINING grant is left as it was but for its held entries (R125). -/
theorem retire_withdrawn (hst : g.state ≠ .listed) :
    (∃ u k, (s.retire w).grant w n = some (u, { g with held := g.held - k })) ∧
      (s.retire w).port n = (s.retireFaulted w).port n := by
  obtain ⟨a, ha⟩ := retire_turn hv n
  obtain ⟨u, k, hgrant⟩ := grant_atTurn ha hg
  have hends := ha.ends
  rw [retireGrant_of_withdrawn hgrant hst] at hends
  obtain ⟨u', hu'⟩ := grantRecord_eq_some_iff.1 (hends.grant.trans (grantRecord_of_grant hgrant))
  exact ⟨⟨u', k, hu'⟩, hends.port.trans ha.port⟩

/-- A LISTED grant of a node that can be asked becomes REVOKING, and the notice follows the completions (R114, R125). -/
theorem retire_noticed (hst : g.state = .listed) (hasked : (s.link n).canBeAsked = true) :
    (∃ u h, (s.retire w).grant w n = some (u, h) ∧ h.state = .revoking (s.noticeNumber n) s.newDeadline) ∧
      ((s.retire w).port n).outbound =
        ((s.retireFaulted w).port n).outbound ++ [.revokeNotice (s.noticeNumber n) g.base v.home.len] ∧
      (s.retire w).map n = s.map n := by
  obtain ⟨a, ha⟩ := retire_turn hv n
  obtain ⟨u, k, hgrant⟩ := grant_atTurn ha hg
  have hends := ha.ends
  rw [retireGrant_of_asked hgrant hst (by rwa [link_atTurn hv ha]), noticeNumber_atTurn hv ha, newDeadline_atTurn ha,
    ha.course.home_of_grant hgrant] at hends
  have hsent : (a.withPort n (a.noticed n g.base v.home.len)).grantRecord w n = some { g with held := g.held - k } :=
    grantRecord_of_grant hgrant
  have hrecord := hends.grant.trans (grantRecord_updateGrant fun _ => rfl)
  rw [hsent] at hrecord
  obtain ⟨u', hu'⟩ := grantRecord_eq_some_iff.1 hrecord
  refine ⟨⟨u', _, hu', rfl⟩, ?_, ?_⟩
  · have hport : (a.withPort n (a.noticed n g.base v.home.len)).port n = a.noticed n g.base v.home.len :=
      Table.get_put_same ..
    rw [hends.port, State.updateGrant, updateLive_port, hport, State.noticed, ha.port, noticeNumber_atTurn hv ha]
  · rw [hends.map, State.updateGrant, updateLive_map]
    exact ha.map

/-- A LISTED grant of any other node is unlisted at once (R115, R125). -/
theorem retire_shortcut (hst : g.state = .listed) (hasked : (s.link n).canBeAsked = false) :
    (s.retire w).port n = (s.retireFaulted w).port n ∧
      (s.retire w).map n = ((s.map n).filter fun x => x != w) ∧
      (g.executing = 0 → (s.retire w).grant w n = none ∧ (s.retire w).isPending (.grantRemoved w) = true) ∧
      (0 < g.executing →
        ∃ u h, (s.retire w).grant w n = some (u, h) ∧ h.state = .draining ∧ h.executing = g.executing) := by
  obtain ⟨a, ha⟩ := retire_turn hv n
  obtain ⟨u, k, hgrant⟩ := grant_atTurn ha hg
  have hends := ha.ends
  rw [retireGrant_of_unasked hgrant hst (by rwa [link_atTurn hv ha])] at hends
  refine ⟨?_, ?_, fun hx => ⟨?_, ?_⟩, fun hx => ?_⟩
  · rw [hends.port, port_unlist_of_unheld ha.unheld, ha.port]
  · rw [hends.map, map_unlist_filtered, ha.map]
  · exact grantRecord_eq_none_iff.1 (hends.grant.trans (grantRecord_eq_none_iff.2 (grant_unlist_removed hgrant hx)))
  · exact hends.flags.pending _ (isPending_removed hgrant hx)
  · have hrecord := hends.grant
    rw [unlist_draining hgrant hx, grantRecord_of_grant (grant_unlisted hgrant)] at hrecord
    obtain ⟨u', hu'⟩ := grantRecord_eq_some_iff.1 hrecord
    exact ⟨u', _, hu', rfl, rfl⟩

end Outcomes

theorem retireNotices_none {s : State} {v : Live} {n : NodeId} (hg : v.grant n = none) : s.retireNotices v n = [] := by
  simp only [State.retireNotices, hg]

theorem retireNotices_some {s : State} {v : Live} {n : NodeId} {g : GrantRecord} (hg : v.grant n = some g) :
    s.retireNotices v n =
      if g.state = .listed ∧ (s.link n).canBeAsked = true then
        [.revokeNotice (s.noticeNumber n) g.base v.home.len]
      else [] := by
  simp only [State.retireNotices, hg]

/-- Each node is sent its completions and then its notice (R125). -/
theorem outbound_retire {s : State} {w : WindowId} {v : Live} (hv : (s.window w).life = some v) (n : NodeId) :
    ((s.retire w).port n).outbound = ((s.retireFaulted w).port n).outbound ++ s.retireNotices v n := by
  cases hg : v.grant n with
  | none => rw [(retire_none hv hg).2, retireNotices_none hg, List.append_nil]
  | some g =>
    rw [retireNotices_some hg]
    by_cases hst : g.state = .listed
    · cases hasked : (s.link n).canBeAsked with
      | true => rw [(retire_noticed hv hg hst hasked).2.1, if_pos ⟨hst, rfl⟩]
      | false =>
        rw [(retire_shortcut hv hg hst hasked).1, if_neg (by simp), List.append_nil]
    · rw [(retire_withdrawn hv hg hst).2, if_neg fun hc => hst hc.1, List.append_nil]

/-! ### The completion of RETIRE -/

/-- RETIRE reports the retirement it has carried out (R127). -/
theorem completeRetire_eq {s : State} {p : Vector Word 8} {w : WindowId} {v : Live} (hn : s.names p w v)
    (hs : v.state = .active ∨ v.state = .suspended) :
    completeRetire p s =
      carriedOut (s.retire w)
        ([flagSlot ((s.retire w).window w).life.isNone, slotOf ((s.retire w).window w).generation.toNat,
          slotOf (s.heldEntries w), slotOf ((s.retire w).windowExecuting w)] ++
            allNodes.map fun n => retireOutcome (v.grant n) ((s.retire w).grant w n)) := by
  have hpassed : s.windowCheck .retire p = .passed w v :=
    windowCheck_passed hn (by rcases hs with hs | hs <;> rw [hs] <;> rfl)
  simp only [completeRetire, hpassed]

/-- A window without grants and held entries is freed at once (R125 step 4, R126). -/
theorem retire_ungranted {s : State} {w : WindowId} {v : Live} (hv : (s.window w).life = some v) (hg : v.grants = [])
    (hh : ∀ n, ∀ e ∈ s.hold n, e.window ≠ w) :
    s.retire w =
      ({ s with
          freeList := release v.home s.freeList
          windows := Table.put s.windows w
            { generation := (s.window w).generation + 1, life := none } } : State).flagged
        (windowSource w) 0b001000 := by
  have hbegun : s.retireBegun w = s.withLife w { v with state := .retiring, quietPending := false } :=
    updateLive_of_life hv _
  have hheld : ∀ n, State.retireHeld w (s.retireBegun w) n = s.retireBegun w := by
    intro n
    refine faultHeld_of_none fun e he => beq_false_of_ne (hh n e ?_)
    rwa [State.retireBegun, updateLive_hold] at he
  have hfaulted : s.retireFaulted w = s.retireBegun w :=
    foldl_keeps (P := fun t => t = s.retireBegun w) (fun t n ht => by rw [ht, hheld]) allNodes rfl
  have hlife : (s.retireBegun w).window w =
      { generation := (s.window w).generation, life := some { v with state := .retiring, quietPending := false } } := by
    rw [hbegun]
    exact Table.get_put_same ..
  have hnone : ∀ n, (s.retireBegun w).grant w n = none := by
    intro n
    rw [grant_of_life (congrArg WindowRecord.life hlife), Live.grant]
    simp [hg]
  have hwithdrawn : s.retireWithdrawn w = s.retireBegun w :=
    foldl_keeps (P := fun t => t = s.retireBegun w) (fun t n ht => by rw [ht, retireGrant_of_none (hnone n)]) allNodes
      hfaulted
  have hdone : (s.retireBegun w).retireIfEmpty w =
      (s.retireBegun w).completeRetirement w { v with state := .retiring, quietPending := false } := by
    simp only [State.retireIfEmpty, hlife]
    exact if_pos ⟨trivial, hg⟩
  rw [retire_eq, hwithdrawn, hdone, State.completeRetirement]
  have hgen : ((s.retireBegun w).window w).generation = (s.window w).generation := by
    rw [hlife]
  rw [hgen, hbegun]
  simp [State.withLife, State.release, State.setWindow, State.raise, State.setReasons, State.flagged, State.reasons,
    Flag.source, Flag.bit]

/-- What the retirement has made of its window when the command completes (R125, R126). -/
theorem window_retire {s : State} {w : WindowId} {v : Live} (hv : (s.window w).life = some v) :
    ((s.retire w).window w = { generation := (s.window w).generation + 1, life := none } ∧
        (s.retire w).isPending (.retireDone w) = true ∧ (s.retire w).freeList = release v.home s.freeList) ∨
      ∃ u, (s.retire w).window w = { generation := (s.window w).generation, life := some u } ∧ u.state = .retiring ∧
        u.quietPending = false ∧ u.home = v.home ∧ u.executing = v.executing ∧ u.grants ≠ [] ∧
        (s.retire w).freeList = s.freeList := by
  obtain ⟨hcourse, hgrants⟩ := (retireWithdrawing_withdrawn hv).course.completed
  rw [← retire_eq] at hcourse hgrants
  cases hcourse with
  | freed window flag free => exact .inl ⟨window, flag, free⟩
  | underWay u window course free =>
    obtain ⟨hstate, hhome, hexecuting, hquiet⟩ : u.state = .retiring ∧ u.home = v.home ∧ u.executing = v.executing ∧
        u.quietPending = false := by simpa [Live.course] using course
    exact .inr ⟨u, window, hstate, hquiet, hhome, hexecuting, hgrants u (congrArg WindowRecord.life window), free⟩

theorem flagSlot_isNone {α : Type} (o : Option α) [Decidable (o = none)] :
    flagSlot o.isNone = if o = none then 1 else 0 := by
  cases o <;> simp [flagSlot]

/-! ### The outcomes (R127) -/

section Reports

variable {g h : GrantRecord} {u : Live} {number : Byte} {limit : Option Nat}

/-- A grant that is REVOKING when RETIRE is taken is PENDING. -/
theorem retireOutcome_revoking (hst : g.state = .revoking number limit) (after : Option (Live × GrantRecord)) :
    retireOutcome (some g) after = slotOf (2 + 256 * number.toNat + 65536 * 65535) := by
  unfold retireOutcome
  rw [← outcomeSlot_notice]
  simp only [hst]

theorem retireOutcome_draining (hst : g.state = .draining) :
    retireOutcome (some g) (some (u, h)) = slotOf (3 + 256 * 255 + 65536 * min h.executing 65535) := by
  unfold retireOutcome
  rw [← outcomeSlot_executing]
  simp only [hst]

/-- A grant that RETIRE withdraws is reported by the state it leaves it in: NOTICE, DRAINING or REMOVED. -/
theorem retireOutcome_noticed (hst : g.state = .listed) (hh : h.state = .revoking number limit) :
    retireOutcome (some g) (some (u, h)) = slotOf (1 + 256 * number.toNat + 65536 * 65535) := by
  unfold retireOutcome
  rw [← outcomeSlot_notice]
  simp only [hst, hh, GrantState.notice]

theorem retireOutcome_drains (hst : g.state = .listed) (hh : h.state = .draining) :
    retireOutcome (some g) (some (u, h)) = slotOf (3 + 256 * 255 + 65536 * min h.executing 65535) := by
  unfold retireOutcome
  rw [← outcomeSlot_executing]
  simp only [hst, hh, GrantState.notice]

theorem retireOutcome_removed (hst : g.state = .listed) : retireOutcome (some g) none = 0xFFFFFF04#32 := by
  unfold retireOutcome
  simp only [hst]
  exact outcomeSlot_bare 4

theorem retireOutcome_none (after : Option (Live × GrantRecord)) : retireOutcome none after = 0xFFFFFF00#32 :=
  outcomeSlot_bare 0

end Reports

/-- Settles O44: the entries are faulted node by node, each grant is withdrawn at its node's turn, and the window is
freed when none remains. -/
theorem retireCompletes : Obligations.RetireCompletes := by
  intro s p w v h hn hs
  have hv := hn.2.1
  have hregister := register_retire hv
  refine ⟨⟨s.retire w, fun n => retireOutcome (v.grant n) ((s.retire w).grant w n), s.retireNotices v, ?_,
    fun n => ?_, fun ha hb => ⟨fun n => ⟨?_, fun e he => ?_⟩, ?_⟩, fun n hg => ?_, fun n g hg =>
      ⟨fun hst hl => ?_, fun hst ha hf => ?_, fun number limit hst => ?_, fun hst => ?_⟩, window_retire hv⟩,
    fun hg hh => ?_⟩
  · rw [← flagSlot_isNone]
    exact commandCompletion_of_carriedOut h (completeRetire_eq hn hs)
  · rw [hold_of_register hregister, hold_retireFaulted hv]
  · rw [outbound_retire hv, outbound_retireFaulted hv ha hb]
  · rw [tag_of_register hregister, tag_retireFaulted hv n e he]
  · rw [captures_of_register hregister, (retireFaulting_faulted hv).captures]
  · obtain ⟨hnone, -⟩ := retire_none hv hg
    refine ⟨hnone, retireNotices_none hg, ?_⟩
    simp only [hg, retireOutcome_none]
  · have hasked := canBeAsked_iff.2 hl
    obtain ⟨⟨u, k, hgrant, hk⟩, -, hmap⟩ := retire_noticed hv hg hst hasked
    refine ⟨(retireNotices_some hg).trans (if_pos ⟨hst, hasked⟩), ?_, hmap, u, k, hgrant, hk⟩
    simp only [hg, hgrant, retireOutcome_noticed hst hk]
  · have hasked : (s.link n).canBeAsked = false := by
      by_contra hc
      exact (canBeAsked_iff.1 (Bool.eq_true_of_not_eq_false hc)).elim ha hf
    obtain ⟨-, hmap, hremoved, hdrains⟩ := retire_shortcut hv hg hst hasked
    refine ⟨(retireNotices_some hg).trans (if_neg (by simp [hasked])), hmap, fun hx => ?_, fun hx => ?_⟩
    · obtain ⟨hnone, hflag⟩ := hremoved hx
      exact ⟨hnone, by simp only [hg, hnone, retireOutcome_removed hst], hflag⟩
    · obtain ⟨u, k, hgrant, hk, hexecuting⟩ := hdrains hx
      refine ⟨?_, u, k, hgrant, hk, hexecuting⟩
      simp only [hg, hgrant, retireOutcome_drains hst hk, hexecuting]
  · obtain ⟨⟨u, k, hgrant⟩, -⟩ := retire_withdrawn hv hg (by simp [hst])
    refine ⟨(retireNotices_some hg).trans (if_neg (by simp [hst])), ?_, u, _, hgrant, rfl⟩
    simp only [hg, retireOutcome_revoking hst]
  · obtain ⟨⟨u, k, hgrant⟩, -⟩ := retire_withdrawn hv hg (by simp [hst])
    refine ⟨(retireNotices_some hg).trans (if_neg (by simp [hst])), ?_, u, _, hgrant, hst, rfl⟩
    simp only [hg, hgrant, retireOutcome_draining hst]
  · have hnone : ∀ n, v.grant n = none := fun n => by simp [Live.grant, hg]
    have hentries : s.heldEntries w = 0 := by
      have hempty : ∀ n, ((s.hold n).filter fun e => e.window == w) = [] := fun n =>
        List.filter_eq_nil_iff.2 fun e he hw => hh n e he (eq_of_beq hw)
      simp [State.heldEntries, hempty]
    have hwindow : (s.retire w).window w = { generation := (s.window w).generation + 1, life := none } := by
      rw [retire_ungranted hv hg hh]
      exact Table.get_put_same ..
    rw [← retire_ungranted hv hg hh]
    refine commandCompletion_of_carriedOut h ((completeRetire_eq hn hs).trans ?_)
    simp only [hwindow, hentries, State.windowExecuting, hnone]
    rfl

end Sys2Proof.Machine
end

section
/-! SUPPORT. The turns of the Copy Engine: the slot a turn goes to, what its beginning and its end make of the state,
and the pacing end (R133, R134, R138). -/

namespace Sys2Proof.Machine

/-! ### The slot a turn goes to (R133 step 1) -/

section NextSlot

variable {s : State} {j : SlotId} {job : Job} {mark : Bool}

theorem isCopying_eq_true_iff {t : Slot} : t.isCopying = true ↔ ∃ job mark, t = .copying job mark := by
  cases t <;> simp [Slot.isCopying]

theorem isCopying_of_copying (hs : s.slot j = .copying job mark) : (s.slot j).isCopying = true :=
  isCopying_eq_true_iff.2 ⟨job, mark, hs⟩

/-- The cyclic order begins after the last slot served and takes every slot once. -/
theorem cyclic_order (l : SlotId) :
    [l + 1, l + 2, l + 3, l] = (List.range 4).map (fun i => l + Fin.ofNat 4 (i + 1)) ∧
      ∀ j, j ∈ [l + 1, l + 2, l + 3, l] := by
  revert l
  decide

/-- The first COPYING slot in cyclic order is the next. -/
theorem nextSlot_of_first {k : Nat} (hk : k < 4) (hj : j = s.engine.last + Fin.ofNat 4 (k + 1))
    (hc : (s.slot j).isCopying = true)
    (hb : ∀ i < k, (s.slot (s.engine.last + Fin.ofNat 4 (i + 1))).isCopying = false) : s.nextSlot = some j := by
  have hfirst : (List.range 4).find? (fun i => (s.slot (s.engine.last + Fin.ofNat 4 (i + 1))).isCopying) = some k :=
    List.find?_range_eq_some.2 ⟨hj ▸ hc, List.mem_range.2 hk, fun i hi => by rw [hb i hi]; rfl⟩
  rw [State.nextSlot, (cyclic_order _).1, List.find?_map]
  exact (congrArg (Option.map _) hfirst).trans (congrArg some hj.symm)

theorem isCopying_nextSlot (h : s.nextSlot = some j) : (s.slot j).isCopying = true :=
  List.find?_some (p := fun j => (s.slot j).isCopying) h

/-- No slot is next exactly when none is COPYING. -/
theorem nextSlot_eq_none_iff : s.nextSlot = none ↔ ∀ j, (s.slot j).isCopying = false := by
  rw [State.nextSlot, List.find?_eq_none]
  refine ⟨fun h j => Bool.eq_false_iff.2 (h j ((cyclic_order _).2 j)), fun h j _ => ?_⟩
  rw [h j]
  exact Bool.false_ne_true

/-- While a slot is COPYING some slot is next, and that slot itself when it is the only one. -/
theorem exists_nextSlot (hc : (s.slot j).isCopying = true) :
    ∃ k, s.nextSlot = some k ∧ ((∀ i, i ≠ j → (s.slot i).isCopying = false) → k = j) := by
  cases hn : s.nextSlot with
  | none => rw [nextSlot_eq_none_iff.1 hn j] at hc; cases hc
  | some k =>
    refine ⟨k, rfl, fun honly => ?_⟩
    by_contra hk
    have hcopying := isCopying_nextSlot hn
    rw [honly k hk] at hcopying
    cases hcopying

theorem nextSlot_of_only (hc : (s.slot j).isCopying = true) (h : ∀ i, i ≠ j → (s.slot i).isCopying = false) :
    s.nextSlot = some j := by
  obtain ⟨k, hk, honly⟩ := exists_nextSlot hc
  rw [hk, honly h]

end NextSlot

/-! ### The beginning of a turn (R133 steps 2 to 4) -/

/-- A slot whose turn it is: its chunk is marked, and it is the last slot served (R133 steps 2 and 3). -/
def State.served (s : State) (j : SlotId) (job : Job) : State :=
  { s.setSlot j (.copying job true) with engine := { s.engine with last := j } }

section Begin

variable {s : State} {j : SlotId} {job : Job} {mark : Bool}

theorem startTurn_of_next (hn : s.nextSlot = some j) (hs : s.slot j = .copying job mark) :
    s.startTurn = (s.served j job).readOrWait j job := by
  simp only [State.startTurn, hn, hs]
  rfl

/-- With no slot COPYING the engine takes no turn (R133). -/
theorem startTurn_of_none (h : ∀ j, (s.slot j).isCopying = false) : s.startTurn = s := by
  simp only [State.startTurn, nextSlot_eq_none_iff.2 h]

/-- The turn waits for an executing WRITE of its chunk (R133 step 4). -/
theorem startTurn_waits (hn : s.nextSlot = some j) (hs : s.slot j = .copying job mark)
    (hw : ∃ x ∈ s.transactions, x.kind = .write ∧ x.window = job.window ∧ x.chunk * 4096 = job.cursor) :
    s.startTurn = { s with
      slots := Table.put s.slots j (.copying job true)
      engine := { phase := .waiting j, last := j } } := by
  have hwrites : (s.served j job).writesChunk job.window job.cursor = true := writesChunk_eq_true_iff.2 hw
  rw [startTurn_of_next hn hs, State.readOrWait, if_pos hwrites]
  rfl

/-- The turn reads its chunk at once when no WRITE of it executes (R133 step 4, R135). -/
theorem startTurn_reads (hn : s.nextSlot = some j) (hs : s.slot j = .copying job mark)
    (hw : ∀ x ∈ s.transactions, x.kind = .write → x.window = job.window → x.chunk * 4096 ≠ job.cursor) :
    s.startTurn = State.issue { s with
        slots := Table.put s.slots j (.copying job true)
        engine := { phase := .reading j, last := j } }
      ⟨.read, job.source.base * 2097152 + job.cursor, 4096, [], .copy j⟩ := by
  have hwrites : ¬(s.served j job).writesChunk job.window job.cursor = true := by
    rw [writesChunk_eq_true_iff]
    rintro ⟨x, hx, hkind, hwindow, hchunk⟩
    exact hw x hx hkind hwindow hchunk
  rw [startTurn_of_next hn hs, State.readOrWait, if_neg hwrites]
  rfl

variable (s)

/-- A turn touches the slots, the engine and the channels alone (R133). -/
theorem startTurn_frame : s.startTurn =
    { s with slots := s.startTurn.slots, engine := s.startTurn.engine, channels := s.startTurn.channels } := by
  unfold State.startTurn State.readOrWait
  split
  · rfl
  · split
    · split <;> rfl
    all_goals rfl

variable {s}

/-- A turn changes no slot but the one it goes to, whose chunk it marks (R133 step 2). -/
theorem slots_startTurn (hn : s.nextSlot = some j) (hs : s.slot j = .copying job mark) :
    s.startTurn.slots = Table.put s.slots j (.copying job true) := by
  rw [startTurn_of_next hn hs, State.readOrWait]
  split <;> rfl

/-- A turn leaves the engine waiting for its chunk or reading it (R133 steps 3 and 4). -/
theorem engine_startTurn (hn : s.nextSlot = some j) :
    s.startTurn.engine.last = j ∧ (s.startTurn.engine.phase = .waiting j ∨ s.startTurn.engine.phase = .reading j) := by
  obtain ⟨job, mark, hs⟩ := isCopying_eq_true_iff.1 (isCopying_nextSlot hn)
  rw [startTurn_of_next hn hs, State.readOrWait]
  split
  · exact ⟨rfl, .inl rfl⟩
  · exact ⟨rfl, .inr rfl⟩

/-- A turn leaves every slot as it was that it does not go to. -/
theorem slot_startTurn_of_ne {i : SlotId} (h : s.nextSlot ≠ some i) : s.startTurn.slot i = s.slot i := by
  cases hn : s.nextSlot with
  | none => rw [startTurn_of_none (nextSlot_eq_none_iff.1 hn)]
  | some j =>
    obtain ⟨job, mark, hs⟩ := isCopying_eq_true_iff.1 (isCopying_nextSlot hn)
    have hne : j ≠ i := fun hj => h (hn.trans (congrArg some hj))
    rw [State.slot, slots_startTurn hn hs, Table.get_put_of_ne _ _ hne]
    rfl

theorem slot_startTurn_of_next (hn : s.nextSlot = some j) (hs : s.slot j = .copying job mark) :
    s.startTurn.slot j = .copying job true := by
  rw [State.slot, slots_startTurn hn hs, Table.get_put_same]

theorem slot_startTurn_of_not_copying (h : (s.slot j).isCopying = false) : s.startTurn.slot j = s.slot j :=
  slot_startTurn_of_ne fun hn => by rw [isCopying_nextSlot hn] at h; cases h

end Begin

/-! ### The end of a turn (R138) -/

section End

variable {s : State}

theorem endTurn_unpaced (h : s.settings.copyPacing = 0) :
    s.endTurn = State.startTurn { s with engine := { phase := .idle, last := s.engine.last } } := if_pos h

theorem endTurn_paced (h : s.settings.copyPacing ≠ 0) : s.endTurn =
    { s with engine := { phase := .pacing (s.now + s.settings.copyPacing.toNat), last := s.engine.last } } := if_neg h

variable (s)

/-- The end of a turn touches the slots, the engine and the channels alone (R138). -/
theorem endTurn_frame : s.endTurn =
    { s with slots := s.endTurn.slots, engine := s.endTurn.engine, channels := s.endTurn.channels } := by
  unfold State.endTurn
  split
  · rw [startTurn_frame (s.setPhase .idle)]
    rfl
  · rfl

variable {s}

theorem slot_endTurn_of_not_copying {j : SlotId} (h : (s.slot j).isCopying = false) : s.endTurn.slot j = s.slot j := by
  unfold State.endTurn
  split
  · exact slot_startTurn_of_not_copying (s := s.setPhase .idle) h
  · rfl

/-- The pacing end at its own instant makes the engine IDLE and begins a turn (R138, log 5). -/
theorem exec_pacingEnd_due {time : Nat} (hr : s.resetHeld = false) (hp : s.engine.phase = .pacing time)
    (hfirst : ∀ x ∈ s.timers, time ≤ x) :
    exec .pacingEnd s = .next (State.startTurn
      { s with now := max s.now time, engine := { phase := .idle, last := s.engine.last } }) := by
  simp only [exec, execPacingEnd, event_free hr, hp, reach_of_first hfirst]
  rfl

end End

/-- Settles O46: the next slot is the first in cyclic order, and a turn is decided by the writes of its chunk. -/
theorem turnServesNextSlot : Obligations.TurnServesNextSlot := by
  refine ⟨fun s j job mark k hk hj hs hb => ?_, fun s => startTurn_of_none, fun s => ⟨endTurn_unpaced, endTurn_paced⟩,
    fun s time hr hp hfirst => ⟨exec_pacingEnd_due hr hp hfirst, fun hnone => ?_⟩⟩
  · have hn : s.nextSlot = some j := nextSlot_of_first hk hj (isCopying_of_copying hs) hb
    exact ⟨startTurn_waits hn hs, startTurn_reads hn hs⟩
  · exact (exec_pacingEnd_due hr hp hfirst).trans (congrArg Host.Outcome.next (startTurn_of_none hnone))

end Sys2Proof.Machine
end

section
/-! SUPPORT. MIGRATE and QUERY JOB: the slot that is taken, the extent that is allocated and the turn that begins; and
the slot that is reported (R147, R148). -/

namespace Sys2Proof.Machine

/-- The four numbers of a table, split at one of them: those before it are lower. -/
theorem four_split (j : Fin 4) :
    ([0, 1, 2, 3] : List (Fin 4)) = [0, 1, 2, 3].take j ++ j :: [0, 1, 2, 3].drop (j + 1) ∧
      ∀ i ∈ ([0, 1, 2, 3] : List (Fin 4)).take j, i < j := by
  revert j
  decide

/-! ### The slot and the extent (R147) -/

theorem idleSlot_of_lowest {s : State} {j : SlotId} (hj : s.slot j = .idle) (hb : ∀ i < j, s.slot i ≠ .idle) :
    s.idleSlot = some j := by
  obtain ⟨hsplit, hlow⟩ := four_split j
  exact List.find?_eq_some_iff_append.2 ⟨by simp [hj], _, _, hsplit, fun i hi => by simp [hb i (hlow i hi)]⟩

theorem idleSlot_eq_none {s : State} (h : ∀ j, s.slot j ≠ .idle) : s.idleSlot = none :=
  List.find?_eq_none.2 fun j _ => by simp [h j]

theorem exists_idleSlot {s : State} (h : ∃ j, s.slot j = .idle) : ∃ j, s.idleSlot = some j := by
  obtain ⟨j, hj⟩ := h
  exact Option.isSome_iff_exists.1 (List.find?_isSome.2 ⟨j, mem_allSlots j, by simp [hj]⟩)

theorem allocate_first (base len : Nat) (l : List Extent) : allocate 0 base len l = firstFit len l := rfl

theorem allocate_explicit (base len : Nat) (l : List Extent) :
    allocate 1 base len l = (allocateExplicit ⟨base, len⟩ l).map fun r => (⟨base, len⟩, r) := rfl

/-! ### The migration that begins -/

section Begin

variable {s : State} {w : WindowId} {v : Live} {j : SlotId} {x : Extent} {free : List Extent}

/-- A job just made: nothing is copied yet (R147). -/
def State.newJob (s : State) (w : WindowId) (v : Live) (x : Extent) : Job := ⟨w, (s.window w).generation, v.home, x, 0⟩

/-- The slot in COPYING with the extent allocated, and the window MIGRATING under it; no turn has begun (R147). -/
def State.begun (s : State) (w : WindowId) (v : Live) (j : SlotId) (x : Extent) (free : List Extent) : State :=
  ({ s with freeList := free, slots := Table.put s.slots j (.copying (s.newJob w v x) false) }).withLife w
    { v with state := .migrating j }

theorem migrate_of_life (hv : (s.window w).life = some v) : s.migrate w v j x free =
    if s.engine.phase = .idle then (s.begun w v j x free).startTurn else s.begun w v j x free := by
  have hbegun : (({ s with freeList := free }).setSlot j (.copying (s.newJob w v x) false)).updateLive w
      (fun v => { v with state := .migrating j }) = s.begun w v j x free :=
    updateLive_of_life (s := ({ s with freeList := free }).setSlot j (.copying (s.newJob w v x) false)) hv _
  exact congrArg (fun t : State => if t.engine.phase = .idle then t.startTurn else t) hbegun

theorem slot_begun (i : SlotId) :
    (s.begun w v j x free).slot i = if j = i then .copying (s.newJob w v x) false else s.slot i := Table.get_put ..

/-- The turn that begins is the new slot's when no other slot is COPYING (R133, R147). -/
theorem nextSlot_begun (h : ∀ i, (s.slot i).isCopying = false) : (s.begun w v j x free).nextSlot = some j := by
  refine nextSlot_of_only (by rw [slot_begun, if_pos rfl]; rfl) fun i hi => ?_
  rw [slot_begun, if_neg (Ne.symm hi), h i]

/-- The first chunk waits for an executing WRITE (R133 step 4). -/
theorem begun_waits (h : ∀ i, (s.slot i).isCopying = false)
    (hw : ∃ y ∈ s.transactions, y.kind = .write ∧ y.window = w ∧ y.chunk = 0) :
    (s.begun w v j x free).startTurn = { s.begun w v j x free with
      slots := Table.put s.slots j (.copying (s.newJob w v x) true)
      engine := { phase := .waiting j, last := j } } := by
  obtain ⟨y, hy, hkind, hwindow, hchunk⟩ := hw
  rw [startTurn_waits (nextSlot_begun h) (by rw [slot_begun, if_pos rfl]) ⟨y, hy, hkind, hwindow, by rw [hchunk]; rfl⟩]
  simp only [State.begun, State.withLife, Table.put_put]

/-- The first chunk is read at once when no WRITE of it executes (R133 step 4). -/
theorem begun_reads (h : ∀ i, (s.slot i).isCopying = false)
    (hw : ∀ y ∈ s.transactions, y.kind = .write → y.window = w → y.chunk ≠ 0) :
    (s.begun w v j x free).startTurn = State.issue { s.begun w v j x free with
        slots := Table.put s.slots j (.copying (s.newJob w v x) true)
        engine := { phase := .reading j, last := j } }
      ⟨.read, v.home.base * 2097152, 4096, [], .copy j⟩ := by
  have hchunk : ∀ y ∈ s.transactions, y.kind = .write → y.window = w → y.chunk * 4096 ≠ 0 := by
    intro y hy hkind hwindow
    have := hw y hy hkind hwindow
    omega
  have haddr : (s.newJob w v x).source.base * 2097152 + (s.newJob w v x).cursor = v.home.base * 2097152 :=
    Nat.add_zero _
  rw [startTurn_reads (job := s.newJob w v x) (nextSlot_begun h) (by rw [slot_begun, if_pos rfl]) hchunk, haddr]
  simp only [State.begun, State.withLife, Table.put_put]

end Begin

/-! ### The checks of MIGRATE (R147) -/

section Checks

/-- What MIGRATE of a window does when its parameters are in range: it looks for a slot, then for an extent (R147). -/
def placeJob (p : Vector Word 8) (w : WindowId) (v : Live) (s : State) : Completion :=
  match s.idleSlot with
  | none => refuse s .noJobSlot (allSlots.map fun j => slotOf (s.slot j).code)
  | some j =>
    match allocate (param p 2) (param p 3) v.home.len s.freeList with
    | none => if param p 2 = 0 then refuse s .noSpace [slotOf (largestFree s.freeList)] else refuse s .overlap []
    | some x =>
      carriedOut (s.migrate w v j x.1 x.2)
        [slotOf j.val, slotOf x.1.base, slotOf x.1.len, slotOf (s.window w).generation.toNat]

variable {s : State} {p : Vector Word 8} {w : WindowId} {v : Live} (h : s.completing .migrate p) (hn : s.names p w v)
  (hst : v.state = .active)
include hn hst

/-- MIGRATE of an ACTIVE window checks its parameters first (R147). -/
theorem complete_migrate : complete .migrate p s =
    if 1 < param p 2 ∨ (param p 2 = 1 ∧ s.granules < param p 3 + v.home.len) then refuse s .badParam []
    else placeJob p w v s := by
  have hpassed : s.windowCheck .migrate p = .passed w v := windowCheck_passed hn (by rw [hst]; rfl)
  simp only [complete, completeMigrate, hpassed, ite_or]
  rfl

include h

/-- A placement over 1, or a target that ends outside the pool, is refused (R147). -/
theorem exec_migrate_badParam (hp : 1 < param p 2 ∨ (param p 2 = 1 ∧ s.granules < param p 3 + v.home.len)) :
    exec .commandCompletion s = .next (s.completed .badParam []) :=
  commandCompletion_of_refuse h ((complete_migrate hn hst).trans (if_pos hp))

variable (h1 : param p 2 ≤ 1) (h2 : param p 2 = 1 → param p 3 + v.home.len ≤ s.granules)
include h1 h2

omit h in
theorem complete_migrate_inRange : complete .migrate p s = placeJob p w v s := by
  rw [complete_migrate hn hst, if_neg]
  rintro (hc | ⟨hc, hlt⟩)
  · omega
  · exact absurd (h2 hc) (not_le.2 hlt)

theorem exec_migrate_noJobSlot (hj : ∀ j, s.slot j ≠ .idle) : exec .commandCompletion s = .next
    (s.completed .noJobSlot [slotOf (s.slot 0).code, slotOf (s.slot 1).code, slotOf (s.slot 2).code,
      slotOf (s.slot 3).code]) := by
  refine commandCompletion_of_refuse h ?_
  rw [complete_migrate_inRange hn hst h1 h2, placeJob, idleSlot_eq_none hj]
  rfl

theorem exec_migrate_noSpace (hj : ∃ j, s.slot j = .idle) (h0 : param p 2 = 0)
    (hf : firstFit v.home.len s.freeList = none) :
    exec .commandCompletion s = .next (s.completed .noSpace [slotOf (largestFree s.freeList)]) := by
  refine commandCompletion_of_refuse h ?_
  obtain ⟨j, hj⟩ := exists_idleSlot hj
  rw [complete_migrate_inRange hn hst h1 h2, placeJob, hj]
  simp only [h0, allocate_first, hf, if_true]

theorem exec_migrate_overlap (hj : ∃ j, s.slot j = .idle) (h0 : param p 2 = 1)
    (hf : allocateExplicit ⟨param p 3, v.home.len⟩ s.freeList = none) :
    exec .commandCompletion s = .next (s.completed .overlap []) := by
  refine commandCompletion_of_refuse h ?_
  obtain ⟨j, hj⟩ := exists_idleSlot hj
  rw [complete_migrate_inRange hn hst h1 h2, placeJob, hj]
  simp only [h0, allocate_explicit, hf, Option.map_none, one_ne_zero, if_false]

/-- MIGRATE takes the slot and the extent it found (R147). -/
theorem exec_migrate_done {j : SlotId} {x : Extent} {free : List Extent} (hj : s.idleSlot = some j)
    (hx : allocate (param p 2) (param p 3) v.home.len s.freeList = some (x, free)) :
    exec .commandCompletion s = .next ((if s.engine.phase = .idle then (s.begun w v j x free).startTurn
      else s.begun w v j x free).completed .done
        [slotOf j.val, slotOf x.base, slotOf x.len, slotOf (s.window w).generation.toNat]) := by
  refine commandCompletion_of_carriedOut h ?_
  rw [complete_migrate_inRange hn hst h1 h2, placeJob, hj, hx, ← migrate_of_life hn.2.1]

end Checks

/-- Settles O45: the checks in the order of R147, and the turn that an IDLE engine begins with the new slot. -/
theorem migrateCompletes : Obligations.MigrateCompletes := by
  refine ⟨?_, fun s p w v h hn hst => ⟨exec_migrate_badParam h hn hst, fun h1 h2 =>
    ⟨exec_migrate_noJobSlot h hn hst h1 h2, exec_migrate_noSpace h hn hst h1 h2, exec_migrate_overlap h hn hst h1 h2⟩⟩⟩
  rintro s a p w v j x free job h hn hst hj hb hx rfl rfl
  obtain ⟨h1, h2, hallocate⟩ : param p 2 ≤ 1 ∧ (param p 2 = 1 → param p 3 + v.home.len ≤ s.granules) ∧
      allocate (param p 2) (param p 3) v.home.len s.freeList = some (x, free) := by
    rcases hx with ⟨h0, hfit⟩ | ⟨h1, hin, rfl, hfit⟩
    · refine ⟨by omega, fun h1 => by omega, ?_⟩
      rw [h0, allocate_first, hfit]
    · refine ⟨by omega, fun _ => hin, ?_⟩
      rw [h1, allocate_explicit, hfit, Option.map_some]
  have hdone := exec_migrate_done h hn hst h1 h2 (idleSlot_of_lowest hj hb) hallocate
  refine ⟨fun hp => ?_, fun hp hnone => ⟨fun hw => ?_, fun hw => ?_⟩⟩
  · rw [hdone, if_neg hp]
    rfl
  · rw [hdone, if_pos hp, begun_waits hnone hw]
    rfl
  · rw [hdone, if_pos hp, begun_reads hnone hw]
    rfl

/-! ### QUERY JOB (R148) -/

section Query

theorem code_lt (t : Slot) : t.code < 256 := by cases t <;> simp [Slot.code]

theorem codeFor_lt (q : EnginePhase) (j : SlotId) : q.codeFor j < 256 := by
  unfold EnginePhase.codeFor
  split <;> (try split) <;> decide

theorem byteOr_reasonCode_lt (t : Slot) : byteOr t.reasonCode < 256 := by
  have hreason : ∀ r : AbortReason, r.code < 256 := by rintro ⟨⟩ <;> decide
  cases t with
  | aborting job r => exact hreason r
  | finished job outcome =>
    cases outcome with
    | done => simp [byteOr, Slot.reasonCode, JobOutcome.code]
    | aborted r => exact hreason r
  | _ => simp [byteOr, Slot.reasonCode]

/-- The first slot that QUERY JOB reports: slot state, engine phase, reason and mark (R148, logs 30 and 31). -/
theorem jobHead_eq (t : Slot) (q : EnginePhase) (j : SlotId) :
    packBytes t.code (q.codeFor j) (byteOr t.reasonCode) (if t.mark then 1 else 0) =
      slotOf (t.code + 256 * q.codeFor j + 65536 * t.reasonCode.getD 255 + if t.mark then 16777216 else 0) := by
  rw [packBytes_of_lt (code_lt t) (codeFor_lt q j) (byteOr_reasonCode_lt t) (by split <;> decide), byteOr]
  split <;> rfl

theorem jobResults_some (job : Job) :
    jobResults (some job) =
      [slotOf (job.window.val + 256 * job.generation.toNat), slotOf job.source.base, slotOf job.source.len,
        slotOf job.target.base, slotOf job.target.len, slotOf (job.cursor / 4096)] := by
  have hwindow : job.window.val < 256 := by have := job.window.isLt; omega
  rw [jobResults, packBytes_of_lt hwindow job.generation.isLt (by decide) (by decide)]
  rfl

theorem jobResults_none :
    jobResults none = [0x0000FFFF#32, absentSlot, absentSlot, absentSlot, absentSlot, absentSlot] := rfl

variable {s : State} {p : Vector Word 8} (h : s.completing .queryJob p)
include h

theorem exec_queryJob {j : SlotId} (hj : param p 0 = j.val) : exec .commandCompletion s = .next (s.completed .done
    ([slotOf ((s.slot j).code + 256 * s.engine.phase.codeFor j + 65536 * (s.slot j).reasonCode.getD 255 +
        if (s.slot j).mark then 16777216 else 0)] ++
      jobResults (s.slot j).job ++ [slotOr ((s.slot j).spare.map s.touching)])) := by
  refine commandCompletion_of_carriedOut h ?_
  simp only [complete, completeQueryJob, slotParam_of_eq hj, jobHead_eq]

end Query

/-- Settles O49: each packed slot weighs its bytes as their places do, and a slot without a job reports it absent. -/
theorem queryJobReports : Obligations.QueryJobReports := by
  refine fun s p h => ⟨fun hp => commandCompletion_of_refuse h ?_, fun j hj => ⟨_, _, rfl, rfl, fun job hjob => ?_,
    fun hjob => ?_⟩⟩
  · simp only [complete, completeQueryJob, slotParam_of_gt hp]
  · rw [exec_queryJob h hj, hjob, jobResults_some, slotOr, Option.map_map]
    rfl
  · rw [exec_queryJob h hj, hjob, jobResults_none, slotOr, Option.map_map]
    rfl

end Sys2Proof.Machine
end

section
/-! SUPPORT. Drains and aborts of jobs: what a slot that reaches FINISHED leaves, the entry to ABORTING in its order,
and that an aborted job stays aborted (R140, R142 to R145). -/

namespace Sys2Proof.Machine

section OfRequests

variable {s t : State} (h : t.beyondRequests = s.beyondRequests)
include h

theorem slots_of_requests : t.slots = s.slots := (congrArg State.slots h :)
theorem engine_of_requests : t.engine = s.engine := (congrArg State.engine h :)

end OfRequests

theorem slot_replayWindow (s : State) (w : WindowId) (j : SlotId) : (s.replayWindow w).state.slot j = s.slot j :=
  congrArg (Table.get · j) (slots_of_requests (replayWindow_requests s w))

/-! ### Flags that stay pending -/

section Flags

variable (s : State)

theorem faultTag_keepsFlags (n : NodeId) (u : Tag) (r : FaultReason) : s.KeepsFlags (s.faultTag n u r) := by
  unfold State.faultTag
  split
  · exact .refl s
  · refine .trans (.of_attention ?_) (captureFault_keepsFlags ..)
    unfold State.send
    split <;> rfl

theorem answerTag_keepsFlags (x : Transaction) : s.KeepsFlags (s.answerTag x) := by
  unfold State.answerTag State.completeTag
  split
  · exact .refl s
  · split
    · exact faultTag_keepsFlags ..
    · refine .of_attention ?_
      unfold State.send
      split <;> rfl

theorem beginExecution_keepsFlags (n : NodeId) (u : Tag) (q : Request) (f : Matched) :
    s.KeepsFlags (s.beginExecution n u q f) := by
  cases hv : (s.window f.window).life with
  | none =>
    rw [beginExecution_of_free hv]
    exact .refl s
  | some v =>
    refine .of_attention ?_
    rw [beginExecution_frame hv]

theorem replayEntries_keepsFlags (n : NodeId) (rest kept : List HoldEntry) :
    s.KeepsFlags (replayEntries n kept rest s).state := by
  induction rest generalizing kept s with
  | nil => exact .of_attention rfl
  | cons e rest ih =>
    simp only [replayEntries]
    split
    · exact ih ..
    · split
      · exact .trans (.of_attention (t := s.setTag n e.tag _) rfl) (ih ..)
      · exact (faultEntry_keepsFlags s n _ e).trans (ih ..)
      · exact ((updateLive_keepsFlags s e.window _).trans (beginExecution_keepsFlags ..)).trans (ih ..)

/-- The passes for a window leave every flag pending that is (R156). -/
theorem replayWindow_keepsFlags (w : WindowId) : s.KeepsFlags (s.replayWindow w).state := by
  have hfold : ∀ (l : List NodeId) (p : Pass), p.state.KeepsFlags (l.foldl (Pass.node w) p).state := by
    intro l
    induction l with
    | nil => exact fun p => .refl p.state
    | cons n l ih =>
      refine fun p => .trans ?_ (ih _)
      unfold Pass.node
      split
      · exact replayEntries_keepsFlags ..
      · exact .refl p.state
  exact hfold allNodes ⟨s, [], []⟩

theorem endTurn_keepsFlags : s.KeepsFlags s.endTurn := .of_attention (by rw [endTurn_frame])

end Flags

/-! ### A slot that reaches FINISHED (R142, R145) -/

section Finish

variable {s : State} {j : SlotId} {job : Job}

theorem slot_finish (o : JobOutcome) (e : Extent) (f : Flag) (i : SlotId) :
    (s.finish j job o e f).slot i = if j = i then .finished job o else s.slot i := by
  have hslots : (s.finish j job o e f).slots = Table.put s.slots j (.finished job o) :=
    slots_of_removals (updateLive_removals ((s.release e).setSlot j (.finished job o)) ..)
  rw [State.slot, hslots, Table.get_put]
  rfl

theorem isPending_finish (o : JobOutcome) (e : Extent) (f : Flag) : (s.finish j job o e f).isPending f = true :=
  isPending_raise ..

/-- The window of the job becomes ACTIVE, the spare extent is free and the flag is raised (R142, R145). -/
theorem finish_of_life {v : Live} (hv : (s.window job.window).life = some v) (hm : v.state = .migrating j)
    (o : JobOutcome) (e : Extent) (f : Flag) :
    s.finish j job o e f = (({ s with
        freeList := release e s.freeList
        slots := Table.put s.slots j (.finished job o) }).withLife job.window
          { v with state := .active }).flagged f.source f.bit := by
  rw [State.finish, updateLive_of_life (s := (s.release e).setSlot j (.finished job o)) hv, endMigration_migrating hm]
  rfl

theorem lookDrain_finished {o : JobOutcome} (hs : s.slot j = .finished job o) : s.lookDrain j = s := by
  simp only [State.lookDrain, hs]

/-- The look at the drain of one slot leaves the other slots as they are. -/
theorem slot_lookDrain_of_ne {i : SlotId} (h : j ≠ i) : (s.lookDrain j).slot i = s.slot i := by
  unfold State.lookDrain
  split
  · split
    · rw [slot_finish, if_neg h]
    · rfl
  · split
    · rw [slot_finish, if_neg h]
    · rfl
  all_goals rfl

/-- The drain of the target ends at once or goes on, by what touches the target and by the engine (R145). -/
theorem slot_lookDrain_aborting {r : AbortReason} (hs : s.slot j = .aborting job r) :
    ((s.lookDrain j).slot j = .finished job (.aborted r) ↔
      s.touching job.target = 0 ∧ s.engine.phase.copiesFor j = false) ∧
    ((s.lookDrain j).slot j = .aborting job r ↔
      s.touching job.target ≠ 0 ∨ s.engine.phase.copiesFor j = true) := by
  by_cases hd : s.touching job.target = 0 ∧ s.engine.phase.copiesFor j = false
  · rw [lookDrain_aborting_free hs hd.1 hd.2, slot_finish, if_pos rfl]
    simp [hd]
  · have hgoes : s.touching job.target ≠ 0 ∨ s.engine.phase.copiesFor j = true := by
      rwa [not_and_or, Bool.not_eq_false] at hd
    rw [lookDrain_aborting_touched hs hgoes, hs]
    simp [hd, hgoes]

end Finish

/-! ### A job that has been aborted -/

/-- The job of a slot has been aborted: it drains its target, or it has given it up with JOB_ABORTED raised (R144,
R145). -/
def State.aborts (s : State) (j : SlotId) (job : Job) (r : AbortReason) : Prop :=
  s.slot j = .aborting job r ∨ s.slot j = .finished job (.aborted r) ∧ s.isPending (.jobAborted j) = true

namespace State.aborts

variable {s t : State} {j : SlotId} {job : Job} {r : AbortReason} (h : s.aborts j job r)
include h

theorem of_slot (hs : t.slot j = s.slot j) (hf : s.KeepsFlags t) : t.aborts j job r := by
  rcases h with h | ⟨h, hp⟩
  · exact .inl (hs.trans h)
  · exact .inr ⟨hs.trans h, hf.pending _ hp⟩

theorem not_copying : (s.slot j).isCopying = false := by
  rcases h with h | ⟨h, -⟩ <;> rw [h] <;> rfl

theorem endTurn : s.endTurn.aborts j job r :=
  h.of_slot (slot_endTurn_of_not_copying h.not_copying) (endTurn_keepsFlags s)

/-- The look at a drain ends an abort at most (R145). -/
theorem lookDrain (k : SlotId) : (s.lookDrain k).aborts j job r := by
  by_cases hk : k = j
  · subst hk
    rcases h with hs | ⟨hs, hp⟩
    · by_cases hd : s.touching job.target = 0 ∧ s.engine.phase.copiesFor k = false
      · rw [lookDrain_aborting_free hs hd.1 hd.2]
        exact .inr ⟨by rw [slot_finish, if_pos rfl], isPending_finish ..⟩
      · rw [lookDrain_aborting_touched hs (by rwa [not_and_or, Bool.not_eq_false] at hd)]
        exact .inl hs
    · rw [lookDrain_finished hs]
      exact .inr ⟨hs, hp⟩
  · exact h.of_slot (slot_lookDrain_of_ne hk) (lookDrain_keepsFlags s k)

theorem tellEngine (w : WindowId) : (s.tellEngine w).aborts j job r := by
  unfold State.tellEngine
  split
  · exact h
  · split
    · rename_i k _
      have hslot : (s.resumeWaiting k).slot j = s.slot j := congrArg (Table.get · j) (resumeWaiting_slots s k)
      exact (h.of_slot hslot (resumeWaiting_keepsFlags s k)).lookDrain k
    all_goals exact h

/-- The end of a transaction ends an abort at most (R88, R145). -/
theorem endTransaction (x : Transaction) : (s.endTransaction x).aborts j job r := by
  have hflags : s.KeepsFlags (s.settled x) :=
    ((answerTag_keepsFlags s x).trans keepsFlags_yield).trans (endFenceDrain_keepsFlags ..)
  rw [endTransaction_eq_settled]
  exact (h.of_slot (slot_settled j) hflags).tellEngine x.window

end State.aborts

/-! ### The entry to ABORTING (R144) -/

/-- The slot is in ABORTING and its WAITING turn, if it had one, has ended (R144 steps 1 and 2). -/
def State.abortTurned (s : State) (j : SlotId) (job : Job) (r : AbortReason) : State :=
  (s.setSlot j (.aborting job r)).endWaiting j

/-- The entries held for the window have been replayed if the mark was set (R144 step 3). -/
def State.abortReplayed (s : State) (j : SlotId) (job : Job) (mark : Bool) (r : AbortReason) : State :=
  if mark then ((s.abortTurned j job r).replayWindow job.window).state else s.abortTurned j job r

section Entry

variable {s : State} {j : SlotId} {job : Job} {mark : Bool} {r : AbortReason}

theorem enterAborting_eq (hs : s.slot j = .copying job mark) :
    s.enterAborting j r = (s.abortReplayed j job mark r).lookDrain j := enterAborting_copying hs r

theorem abortTurned_of_not_waiting (h : s.engine.phase ≠ .waiting j) :
    s.abortTurned j job r = { s with slots := Table.put s.slots j (.aborting job r) } := if_neg h

theorem abortTurned_of_waiting (h : s.engine.phase = .waiting j) :
    s.abortTurned j job r = State.startTurn { s with
      slots := Table.put s.slots j (.aborting job r)
      engine := { phase := .idle, last := s.engine.last } } := if_pos h

theorem slot_abortTurned : (s.abortTurned j job r).slot j = .aborting job r := by
  have hset : (s.setSlot j (.aborting job r)).slot j = .aborting job r := Table.get_put_same ..
  unfold State.abortTurned State.endWaiting
  split
  · exact (slot_startTurn_of_not_copying (s := (s.setSlot j (.aborting job r)).setPhase .idle)
      (congrArg Slot.isCopying hset)).trans hset
  · exact hset

theorem slot_abortReplayed : (s.abortReplayed j job mark r).slot j = .aborting job r := by
  unfold State.abortReplayed
  split
  · rw [slot_replayWindow, slot_abortTurned]
  · exact slot_abortTurned

theorem engine_abortReplayed : (s.abortReplayed j job mark r).engine = (s.abortTurned j job r).engine := by
  unfold State.abortReplayed
  split
  · exact engine_of_requests (replayWindow_requests ..)
  · rfl

variable (hs : s.slot j = .copying job mark)
include hs

theorem enterAborting_aborts : (s.enterAborting j r).aborts j job r := by
  rw [enterAborting_eq hs]
  exact State.aborts.lookDrain (.inl slot_abortReplayed) j

/-- An engine that does not wait for the slot goes on with what it does (R144 step 2). -/
theorem engine_enterAborting (h : s.engine.phase ≠ .waiting j) : (s.enterAborting j r).engine = s.engine := by
  rw [enterAborting_eq hs, (lookDrain_engine ..).1, engine_abortReplayed, abortTurned_of_not_waiting h]

end Entry

/-! ### A mirror write that failed (R140) -/

/-- A failed mirror write is told to the job before the record is looked at for its end (R140, log 11). -/
theorem operationEnded_mirror (s : State) {x : Transaction} {r : OpEnd} (hm : x.mirrored = true)
    (hf : r.failed = true) :
    s.operationEnded x .target r =
      if (x.afterOp .target r.failed r.bytes).ops.any fun o => o.outcome == .pending then
        (s.noteOp x .target r.failed r.bytes).mirrorFailed x.window
      else
        ((s.noteOp x .target r.failed r.bytes).mirrorFailed x.window).endTransaction
          (x.afterOp .target r.failed r.bytes) := by
  simp only [State.operationEnded, hm, hf, beq_self_eq_true, Bool.and_self, if_true]
  rfl

/-- The job that copies the window of a failed mirror write is aborted, and stays so when the write ends (R140). -/
theorem operationEnded_aborts {s : State} {x : Transaction} {r : OpEnd} {v : Live} {j : SlotId} {job : Job}
    {mark : Bool} (hm : x.mirrored = true) (hf : r.failed = true) (hv : (s.window x.window).life = some v)
    (hst : v.state = .migrating j) (hs : s.slot j = .copying job mark) :
    (s.operationEnded x .target r).aborts j job .mirrorWriteError := by
  have htold : ((s.noteOp x .target r.failed r.bytes).mirrorFailed x.window).aborts j job .mirrorWriteError := by
    rw [mirrorFailed_migrating (s := s.noteOp x .target r.failed r.bytes) hv hst]
    exact enterAborting_aborts (s := s.noteOp x .target r.failed r.bytes) hs
  rw [operationEnded_mirror s hm hf]
  split
  · exact htold
  · exact htold.endTransaction _

/-! ### ABORT JOB (R143) -/

section Command

variable {s : State} {p : Vector Word 8} (h : s.completing .abortJob p) {j : SlotId} (hj : param p 0 = j.val)
include h hj

theorem exec_abortJob_idle (hs : s.slot j = .idle) :
    exec .commandCompletion s = .next (s.completed .wrongState [0]) :=
  commandCompletion_of_refuse h (by simp only [complete, completeAbortJob, slotParam_of_eq hj, hs]; rfl)

theorem exec_abortJob_drainingOld {job : Job} (hs : s.slot j = .drainingOld job) :
    exec .commandCompletion s = .next (s.completed .wrongState [3]) :=
  commandCompletion_of_refuse h (by simp only [complete, completeAbortJob, slotParam_of_eq hj, hs]; rfl)

theorem exec_abortJob_finished {job : Job} {o : JobOutcome} (hs : s.slot j = .finished job o) :
    exec .commandCompletion s = .next (s.completed .wrongState [4, slotOf o.code]) :=
  commandCompletion_of_refuse h (by simp only [complete, completeAbortJob, slotParam_of_eq hj, hs]; rfl)

theorem exec_abortJob_aborting {job : Job} {r : AbortReason} (hs : s.slot j = .aborting job r) :
    exec .commandCompletion s = .next (s.completed .inProgress [2, slotOf r.code]) :=
  commandCompletion_of_refuse h (by simp only [complete, completeAbortJob, slotParam_of_eq hj, hs]; rfl)

/-- ABORT JOB of a COPYING slot reports its window, generation and cursor and whether the drain ended (R143, logs 25
and 31). -/
theorem exec_abortJob_copying {job : Job} {mark : Bool} (hs : s.slot j = .copying job mark) :
    exec .commandCompletion s = .next ((s.enterAborting j .byCommand).completed .done
      [slotOf job.window.val, slotOf job.generation.toNat, slotOf (job.cursor / 4096),
        flagSlot ((s.enterAborting j .byCommand).slot j).isFinished]) :=
  commandCompletion_of_carriedOut h (by simp only [complete, completeAbortJob, slotParam_of_eq hj, hs]; rfl)

end Command

/-- An aborted job is FINISHED with its flag raised exactly when its drain has ended (R145). -/
theorem isFinished_of_aborts {s : State} {j : SlotId} {job : Job} {r : AbortReason} (h : s.aborts j job r) :
    ((s.slot j).isFinished = false → s.slot j = .aborting job r) ∧
      ((s.slot j).isFinished = true →
        s.slot j = .finished job (.aborted r) ∧ s.isPending (.jobAborted j) = true) := by
  rcases h with h | h
  · exact ⟨fun _ => h, fun hf => by simp [h, Slot.isFinished] at hf⟩
  · exact ⟨fun hf => by simp [h.1, Slot.isFinished] at hf, fun _ => h⟩

/-- Settles O48: the command and the failed mirror write both enter ABORTING, whose steps are those of R144. -/
theorem jobsAbort : Obligations.JobsAbort := by
  refine ⟨fun s p h => ⟨fun hp => commandCompletion_of_refuse h ?_, fun j hj => ⟨exec_abortJob_idle h hj,
      fun job => exec_abortJob_drainingOld h hj, fun job o => exec_abortJob_finished h hj,
      fun job r => exec_abortJob_aborting h hj, fun job mark hs => ?_⟩⟩,
    fun s c op rest x v j job mark hr ha hc hi hx hm hv hst hs => ?_,
    fun s w v hv => ⟨fun j => mirrorFailed_migrating hv, mirrorFailed_of_not_migrating hv⟩,
    fun s j r => ⟨fun hs => enterAborting_of_not_copying hs r, fun job mark hs => ?_⟩,
    fun s j job r v hs hv hm => ⟨lookDrain_aborting_touched hs, fun ht hp => ?_⟩⟩
  · simp only [complete, completeAbortJob, slotParam_of_gt hp]
  · have haborts : (s.enterAborting j .byCommand).aborts j job .byCommand := enterAborting_aborts hs
    exact ⟨_, _, exec_abortJob_copying h hj hs, rfl, isFinished_of_aborts haborts⟩
  · exact ⟨_, exec_operationEnd ha ⟨hr, hc, hi, hx⟩ true,
      operationEnded_aborts (s := (s.endOp c op rest true).state) hm rfl hv hst hs⟩
  · obtain ⟨hfinished, haborting⟩ :=
      slot_lookDrain_aborting (slot_abortReplayed (s := s) (j := j) (job := job) (mark := mark) (r := r))
    rw [← enterAborting_eq hs] at hfinished haborting
    exact ⟨s.abortTurned j job r, s.abortReplayed j job mark r, abortTurned_of_not_waiting, abortTurned_of_waiting,
      fun hmark => if_pos hmark, fun hmark => if_neg (by simp [hmark]), slot_abortReplayed, engine_abortReplayed,
      enterAborting_eq hs, hfinished, haborting⟩
  · rw [lookDrain_aborting_free hs ht hp]
    exact finish_of_life hv hm ..

end Sys2Proof.Machine
end

section
/-! SUPPORT. The ends of copy operations: the operation that ends, the chunk that is copied, the switch, and the failure
that aborts the job (R135, R137, R138, R141, R142, R144, R145). -/

namespace Sys2Proof.Machine

/-! ### The operation that ends (R24) -/

section Head

variable {s : State} {c : ChannelId} {op : PoolOp} {rest : List PoolOp} {j : SlotId} (hc : s.channel c = op :: rest)
  (hi : op.issuer = .copy j) (hb : ∀ i < c, ∀ x ∈ (s.channel i).head?, x.issuer ≠ .copy j)
include hc hi hb

/-- The engine's operation is the one that the lowest channel with such a head holds. -/
theorem copyHead_of_first : s.copyHead j = some ⟨c, op, rest⟩ := by
  obtain ⟨hsplit, hlow⟩ := four_split c
  refine List.findSome?_eq_some_iff.2 ⟨_, c, _, hsplit, by simp only [hc, hi, if_true], fun i hmem => ?_⟩
  have hother := hb i (hlow i hmem)
  cases hq : s.channel i with
  | nil => rfl
  | cons x more =>
    rw [hq] at hother
    exact if_neg (hother x rfl)

variable (hr : s.resetHeld = false) (dramFault : Bool)
include hr

theorem exec_copyReadEnd (hp : s.engine.phase = .reading j) :
    exec (.copyReadEnd dramFault) s = .next (State.copyReadEnded j (s.endOp c op rest dramFault)) := by
  simp only [exec, execCopyReadEnd, event_free hr, hp, copyHead_of_first hc hi hb]

theorem exec_copyWriteEnd {data : List Byte} (hp : s.engine.phase = .writing j data) :
    exec (.copyWriteEnd dramFault) s = .next (State.copyWriteEnded j (s.endOp c op rest dramFault)) := by
  simp only [exec, execCopyWriteEnd, event_free hr, hp, copyHead_of_first hc hi hb]

end Head

/-! ### What each end does, by the state of its slot -/

section Ended

variable {j : SlotId} {r : OpEnd} {job : Job}

section Copying

variable {mark : Bool} (hs : r.state.slot j = .copying job mark)
include hs

theorem copyReadEnded_ok (hf : r.failed = false) :
    State.copyReadEnded j r = r.state.issueCopyWrite j job r.bytes := by
  simp [State.copyReadEnded, hs, hf]

theorem copyReadEnded_failed (hf : r.failed = true) :
    State.copyReadEnded j r = r.state.copyFailed j .copyReadError := by
  simp [State.copyReadEnded, hs, hf]

theorem copyWriteEnded_failed (hf : r.failed = true) :
    State.copyWriteEnded j r = r.state.copyFailed j .copyWriteError := by
  simp [State.copyWriteEnded, hs, hf]

theorem copyWriteEnded_ok (hf : r.failed = false) :
    State.copyWriteEnded j r =
      (((r.state.setPhase .idle).afterChunk j { job with cursor := job.cursor + 4096 }).replayWindow
        job.window).state.endTurn := by
  simp only [State.copyWriteEnded, hs, hf, Bool.false_eq_true, if_false]
  rfl

end Copying

section Aborting

variable {reason : AbortReason} (hs : r.state.slot j = .aborting job reason)
include hs

theorem copyReadEnded_aborting : State.copyReadEnded j r = r.state.endTurn.lookDrain j := by
  simp only [State.copyReadEnded, hs, State.endAbortedTurn]

theorem copyWriteEnded_aborting : State.copyWriteEnded j r = r.state.endTurn.lookDrain j := by
  simp only [State.copyWriteEnded, hs, State.endAbortedTurn]

end Aborting

end Ended

/-! ### What stands through a turn's end -/

section OfJobs

variable {s t : State} (h : t.beyondJobs = s.beyondJobs)
include h

theorem settings_of_jobs : t.settings = s.settings := (congrArg State.settings h :)
theorem now_of_jobs : t.now = s.now := (congrArg State.now h :)

end OfJobs

/-- A window keeps its home and its state where the estate is kept. -/
theorem life_of_estate {s t : State} (h : t.estate = s.estate) {w : WindowId} {v : Live}
    (hv : (s.window w).life = some v) :
    ∃ u, (t.window w).life = some u ∧ u.home = v.home ∧ u.state = v.state := by
  have htenure : t.estate.tenures w = some (v.state, v.home) := by
    rw [h]
    exact tenures_estate.2 ⟨v, hv, rfl, rfl⟩
  obtain ⟨u, hu, hstate, hhome⟩ := tenures_estate.1 htenure
  exact ⟨u, hu, hhome, hstate⟩

theorem freeList_of_estate {s t : State} (h : t.estate = s.estate) : t.freeList = s.freeList :=
  congrArg Estate.freeList h

theorem pool_of_estate {s t : State} (h : t.estate = s.estate) : t.pool = s.pool := congrArg Estate.pool h

/-! ### The next turn of a slot that goes on (R137, R138) -/

/-- How the turn of a slot that goes on, at its end in `s`, leaves the engine in `t`: with a pacing, or with a new turn,
which marks the slot's next chunk (`m`) exactly when it is that slot's again (R138, R133). -/
def State.turnsOn (s t : State) (j : SlotId) (m : Bool) : Prop :=
  (s.settings.copyPacing ≠ 0 → m = false ∧
    t.engine = { phase := .pacing (s.now + s.settings.copyPacing.toNat), last := s.engine.last }) ∧
  (s.settings.copyPacing = 0 →
    (m = true ↔ t.engine.last = j) ∧
    (m = true → t.engine.phase = .waiting j ∨ t.engine.phase = .reading j) ∧
    ((∀ i, i ≠ j → (s.slot i).isCopying = false) → m = true))

section GoesOn

variable {s : State} {j : SlotId} {job : Job} (hs : s.slot j = .copying job false)
include hs

/-- The turn that begins marks the slot's next chunk exactly when it is that slot's turn (R133). -/
theorem startTurn_copying : ∃ m : Bool, (m = true ↔ s.startTurn.engine.last = j) ∧
    (m = true → s.startTurn.engine.phase = .waiting j ∨ s.startTurn.engine.phase = .reading j) ∧
    ((∀ i, i ≠ j → (s.slot i).isCopying = false) → m = true) ∧ s.startTurn.slot j = .copying job m := by
  obtain ⟨k, hn, honly⟩ := exists_nextSlot (isCopying_of_copying hs)
  obtain ⟨hlast, hphase⟩ := engine_startTurn hn
  by_cases hk : k = j
  · subst hk
    exact ⟨true, iff_of_true rfl hlast, fun _ => hphase, fun _ => rfl, slot_startTurn_of_next hn hs⟩
  · refine ⟨false, iff_of_false Bool.false_ne_true (by rwa [hlast]), fun hm => absurd hm Bool.false_ne_true,
      fun h => absurd (honly h) hk, ?_⟩
    rw [slot_startTurn_of_ne (by rw [hn]; exact fun hc => hk (Option.some.inj hc)), hs]

/-- The turn ends with a pacing, or with a new turn that may be the slot's again (R138). -/
theorem endTurn_copying : ∃ m : Bool, s.turnsOn s.endTurn j m ∧ s.endTurn.slot j = .copying job m := by
  by_cases hp : s.settings.copyPacing = 0
  · obtain ⟨m, hlast, hphase, honly, hslot⟩ := startTurn_copying (s := s.setPhase .idle) hs
    rw [endTurn_unpaced hp]
    exact ⟨m, ⟨fun hc => absurd hp hc, fun _ => ⟨hlast, hphase, honly⟩⟩, hslot⟩
  · rw [endTurn_paced hp]
    exact ⟨false, ⟨fun _ => ⟨rfl, rfl⟩, fun hc => absurd hc hp⟩, hs⟩

end GoesOn

/-- A job with one more chunk copied (R137). -/
def Job.next (job : Job) : Job := { job with cursor := job.cursor + 4096 }

/-- The state in which a chunk has been copied short of the window's end: the mark is clear and the engine IDLE, and the
entries held for the window are still to be replayed (R137). -/
def State.copied (s : State) (j : SlotId) (job : Job) : State := (s.setPhase .idle).setSlot j (.copying job.next false)

theorem slot_copied {s : State} {j : SlotId} {job : Job} (i : SlotId) :
    (s.copied j job).slot i = if j = i then .copying job.next false else s.slot i := slot_setSlot ..

theorem copyWriteEnded_goesOn {j : SlotId} {r : OpEnd} {job : Job} {mark : Bool}
    (hs : r.state.slot j = .copying job mark) (hf : r.failed = false) (h : job.cursor + 4096 ≠ job.source.len * 2097152) :
    State.copyWriteEnded j r = ((r.state.copied j job).replayWindow job.window).state.endTurn := by
  have hafter : (r.state.setPhase .idle).afterChunk j job.next = r.state.copied j job := if_neg h
  rw [← hafter]
  exact copyWriteEnded_ok hs hf

/-! ### The switch (R141) -/

section Switch

variable {s : State} {j : SlotId} {job : Job} {v : Live}

/-- The state in which the switch has been taken and its drain not yet looked at (R141). -/
def State.switched (s : State) (j : SlotId) (job : Job) (v : Live) : State :=
  ((s.setPhase .idle).setSlot j (.drainingOld job.next)).withLife job.window { v with home := job.target }

theorem copyWriteEnded_switches {r : OpEnd} {mark : Bool} (hs : r.state.slot j = .copying job mark)
    (hf : r.failed = false) (hv : (r.state.window job.window).life = some v)
    (h : job.cursor + 4096 = job.source.len * 2097152) :
    State.copyWriteEnded j r =
      (((r.state.switched j job v).lookDrain j).replayWindow job.window).state.endTurn := by
  have hafter : (r.state.setPhase .idle).afterChunk j job.next = (r.state.setPhase .idle).switch j job.next := if_pos h
  have hswitch : (r.state.setPhase .idle).switch j job.next = (r.state.switched j job v).lookDrain j := by
    rw [State.switch, updateLive_of_life (s := r.state.setPhase .idle) (w := job.next.window) hv]
    rfl
  rw [← hswitch, ← hafter]
  exact copyWriteEnded_ok hs hf

theorem slot_switched : (s.switched j job v).slot j = .drainingOld job.next := Table.get_put_same ..

theorem life_switched : ((s.switched j job v).window job.window).life = some { v with home := job.target } :=
  congrArg WindowRecord.life (Table.get_put_same ..)

variable (hm : v.state = .migrating j)
include hm

/-- What the look at the drain leaves after the switch: the old extent drains on, or the job is done (R142). -/
theorem switched_drain : ∃ u, (((s.switched j job v).lookDrain j).window job.window).life = some u ∧
    u.home = job.target ∧
    (s.touching job.source ≠ 0 → ((s.switched j job v).lookDrain j).freeList = s.freeList ∧ u.state = .migrating j ∧
      ((s.switched j job v).lookDrain j).slot j = .drainingOld job.next) ∧
    (s.touching job.source = 0 → ((s.switched j job v).lookDrain j).freeList = release job.source s.freeList ∧
      u.state = .active ∧ ((s.switched j job v).lookDrain j).slot j = .finished job.next .done ∧
      ((s.switched j job v).lookDrain j).isPending (.jobDone j) = true) := by
  by_cases ht : s.touching job.source = 0
  · rw [lookDrain_drainingOld_free slot_switched ht]
    refine ⟨{ v with home := job.target, state := .active }, ?_, rfl, fun hc => absurd ht hc, fun _ =>
      ⟨freeList_updateLive .., rfl, by rw [slot_finish, if_pos rfl], isPending_finish ..⟩⟩
    rw [finish_of_life (job := job.next) (life_switched (s := s) (j := j) (job := job)) hm]
    exact congrArg WindowRecord.life (Table.get_put_same ..)
  · rw [lookDrain_drainingOld_touched slot_switched ht]
    exact ⟨_, life_switched, rfl, fun _ => ⟨rfl, hm, slot_switched⟩, fun hc => absurd hc ht⟩

end Switch

/-! ### A copy operation that failed -/

/-- The slot enters ABORTING, or through it FINISHED, with the engine IDLE, and the turn ends (R144, log 27). -/
theorem copyFailed_leaves {s : State} {j : SlotId} {job : Job} {mark : Bool} (hs : s.slot j = .copying job mark)
    (reason : AbortReason) : ∃ p : State, s.copyFailed j reason = p.endTurn ∧
      p = ({ s with engine := { phase := .idle, last := s.engine.last } } : State).enterAborting j reason ∧
      p.engine = { phase := .idle, last := s.engine.last } ∧ p.settings = s.settings ∧ p.now = s.now ∧
      p.endTurn.pool = s.pool ∧ p.endTurn.aborts j job reason := by
  have hjobs : ((s.setPhase .idle).enterAborting j reason).beyondJobs = s.beyondJobs := by simp
  exact ⟨_, rfl, rfl, engine_enterAborting (s := s.setPhase .idle) hs (by simp), settings_of_jobs hjobs,
    now_of_jobs hjobs, pool_of_jobs ((endTurn_jobs _).trans hjobs),
    (enterAborting_aborts (s := s.setPhase .idle) hs).endTurn⟩

/-! ### The replay and the turn that follow a chunk (R137) -/

section Replayed

variable {s p : State} {w : WindowId} (hp : p = (s.replayWindow w).state)
include hp

/-- The replay after a chunk leaves the slots, the engine, the settings and the time as they are. -/
theorem replayed_frame :
    p.slots = s.slots ∧ p.engine = s.engine ∧ p.settings = s.settings ∧ p.now = s.now := by
  have hrequests : p.beyondRequests = s.beyondRequests := by rw [hp, replayWindow_requests]
  have hjobs := beyondJobs_of_requests hrequests
  exact ⟨slots_of_requests hrequests, engine_of_requests hrequests, settings_of_jobs hjobs, now_of_jobs hjobs⟩

theorem replayed_slot (j : SlotId) : p.slot j = s.slot j := congrArg (Table.get · j) (replayed_frame hp).1

/-- The replay and the end of the turn leave the pool, the windows' homes and states and the Free Extent List. -/
theorem replayed_estate : p.endTurn.estate = s.estate := by rw [hp, endTurn_estate, replayWindow_estate]

theorem replayed_keepsFlags : s.KeepsFlags p.endTurn := by
  rw [hp]
  exact (replayWindow_keepsFlags s w).trans (endTurn_keepsFlags _)

theorem replayed_endTurn_slot {j : SlotId} (h : (s.slot j).isCopying = false) : p.endTurn.slot j = s.slot j := by
  rw [slot_endTurn_of_not_copying (by rw [replayed_slot hp, h]), replayed_slot hp]

end Replayed

section Chunk

variable {s p : State} {j : SlotId} {job : Job} {v : Live} (hm : v.state = .migrating j)
include hm

/-- What the replay and the end of the turn leave of a chunk short of the window's end (R137, R138). -/
theorem replayed_copied (hv : (s.window job.window).life = some v)
    (hp : p = ((s.copied j job).replayWindow job.window).state) :
    (p.slots = Table.put s.slots j (.copying job.next false) ∧ p.engine = { phase := .idle, last := s.engine.last } ∧
      p.settings = s.settings ∧ p.now = s.now ∧ p.endTurn.pool = s.pool) ∧
    ∃ m : Bool, s.turnsOn p.endTurn j m ∧ p.endTurn.slot j = .copying job.next m ∧
      (∃ u, (p.endTurn.window job.window).life = some u ∧ u.home = v.home ∧ u.state = .migrating j) ∧
      p.endTurn.freeList = s.freeList := by
  obtain ⟨hslots, hengine, hsettings, hnow⟩ := replayed_frame hp
  have hestate := replayed_estate hp
  have hslot : p.slot j = .copying job.next false := by rw [replayed_slot hp, slot_copied, if_pos rfl]
  have hothers : ∀ i, i ≠ j → p.slot i = s.slot i := fun i hi => by
    rw [replayed_slot hp, slot_copied, if_neg (Ne.symm hi)]
  obtain ⟨m, ⟨hpaced, hunpaced⟩, hturn⟩ := endTurn_copying hslot
  rw [hsettings, hnow, hengine] at hpaced
  rw [hsettings] at hunpaced
  obtain ⟨u, hu, hhome, hstate⟩ := life_of_estate hestate hv
  refine ⟨⟨hslots, hengine, hsettings, hnow, (pool_of_estate hestate).trans rfl⟩, m, ⟨hpaced, fun h0 => ?_⟩, hturn,
    ⟨u, hu, hhome, hstate.trans hm⟩, (freeList_of_estate hestate).trans rfl⟩
  obtain ⟨hlast, hphase, honly⟩ := hunpaced h0
  exact ⟨hlast, hphase, fun h => honly fun i hi => by rw [hothers i hi, h i hi]⟩

/-- What the replay and the end of the turn leave of the switch and the look at its drain (R137, R141, R142). -/
theorem replayed_switched {w : WindowId} (hp : p = (((s.switched j job v).lookDrain j).replayWindow w).state) :
    (p.engine = { phase := .idle, last := s.engine.last } ∧ p.settings = s.settings ∧ p.now = s.now ∧
      p.endTurn.pool = s.pool) ∧
    ∃ u, (p.endTurn.window job.window).life = some u ∧ u.home = job.target ∧
      (s.touching job.source ≠ 0 → p.endTurn.freeList = s.freeList ∧ u.state = .migrating j ∧
        p.endTurn.slot j = .drainingOld job.next) ∧
      (s.touching job.source = 0 → p.endTurn.freeList = release job.source s.freeList ∧ u.state = .active ∧
        p.endTurn.slot j = .finished job.next .done ∧ p.endTurn.isPending (.jobDone j) = true) := by
  obtain ⟨-, hengine, hsettings, hnow⟩ := replayed_frame hp
  have hestate := replayed_estate hp
  have hjobs : ((s.switched j job v).lookDrain j).beyondJobs = s.beyondJobs := (lookDrain_jobs ..).trans rfl
  have hidle : ((s.switched j job v).lookDrain j).engine = { phase := .idle, last := s.engine.last } :=
    (lookDrain_engine ..).1.trans rfl
  obtain ⟨b, hb, hhome, htouched, hfree⟩ := switched_drain (s := s) (job := job) hm
  obtain ⟨u, hu, huhome, hustate⟩ := life_of_estate hestate hb
  refine ⟨⟨hengine.trans hidle, hsettings.trans (settings_of_jobs hjobs),
    hnow.trans (now_of_jobs hjobs), (pool_of_estate hestate).trans (pool_of_jobs hjobs)⟩,
    u, hu, huhome.trans hhome, fun ht => ?_, fun ht => ?_⟩
  · obtain ⟨hlist, hst, hslot⟩ := htouched ht
    exact ⟨(freeList_of_estate hestate).trans hlist, hustate.trans hst,
      (replayed_endTurn_slot hp (by rw [hslot]; rfl)).trans hslot⟩
  · obtain ⟨hlist, hst, hslot, hflag⟩ := hfree ht
    exact ⟨(freeList_of_estate hestate).trans hlist, hustate.trans hst,
      (replayed_endTurn_slot hp (by rw [hslot]; rfl)).trans hslot, (replayed_keepsFlags hp).pending _ hflag⟩

end Chunk

/-- Settles O47: each end is that of its slot's state; what follows a chunk is a replay and the end of the turn, which
leave what the chunk, the switch and the drain have made. -/
theorem copyOperationsEnd : Obligations.CopyOperationsEnd := by
  refine ⟨?_, ?_, ?_, fun s j job v hs hv hm => ⟨lookDrain_drainingOld_touched hs, fun ht => ?_⟩⟩
  · rintro s c op rest j job mark dramFault r hreset hp hc hi hb rfl hs
    have hend := exec_copyReadEnd hc hi hb hreset dramFault hp
    refine ⟨fun hf => hend.trans (congrArg Host.Outcome.next (copyReadEnded_ok hs hf)), fun hf => ?_⟩
    obtain ⟨p, hfailed, hentry⟩ := copyFailed_leaves (s := (s.endOp c op rest dramFault).state) hs .copyReadError
    rw [copyReadEnded_failed hs hf, hfailed] at hend
    exact ⟨_, p, hend, rfl, hentry⟩
  · rintro s c op rest j job mark dramFault v data r hreset hp hc hi hb rfl hs hv hm
    have hend := exec_copyWriteEnd hc hi hb hreset dramFault hp
    refine ⟨fun hf hcursor => ?_, fun hf hcursor => ?_, fun hf => ?_⟩
    · rw [copyWriteEnded_goesOn hs hf hcursor] at hend
      obtain ⟨⟨hslots, hengine, hsettings, hnow, hpool⟩, m, ⟨hpaced, hunpaced⟩, hturn⟩ :=
        replayed_copied (s := (s.endOp c op rest dramFault).state) hm hv rfl
      exact ⟨_, _, m, hend, rfl, rfl, hslots, hengine, hsettings, hnow, hpool, hpaced, hunpaced, hturn⟩
    · rw [copyWriteEnded_switches hs hf hv hcursor] at hend
      obtain ⟨⟨hengine, hsettings, hnow, hpool⟩, u, hu⟩ :=
        replayed_switched (s := (s.endOp c op rest dramFault).state) (job := job) hm rfl
      exact ⟨_, _, u, hend, rfl, rfl, hengine, hsettings, hnow, hpool, hu⟩
    · obtain ⟨p, hfailed, hentry⟩ := copyFailed_leaves (s := (s.endOp c op rest dramFault).state) hs .copyWriteError
      rw [copyWriteEnded_failed hs hf, hfailed] at hend
      exact ⟨_, p, hend, rfl, hentry⟩
  · rintro s c op rest j job reason dramFault r hreset hc hi hb rfl hs
    refine ⟨pool_of_jobs (endTurn_jobs _), fun hp => ?_, fun data hp => ?_⟩
    · rw [exec_copyReadEnd hc hi hb hreset dramFault hp, copyReadEnded_aborting hs]
    · rw [exec_copyWriteEnd hc hi hb hreset dramFault hp, copyWriteEnded_aborting hs]
  · rw [lookDrain_drainingOld_free hs ht]
    exact finish_of_life hv hm ..

end Sys2Proof.Machine
end

section
/-! SUPPORT. The attention sources by their classes, and what the port shows of them (sections 9.4 and 11.1). -/

namespace Sys2Proof.Machine

/-! ### The classes of the sources -/

@[simp] theorem nodeSource_val (n : NodeId) : (nodeSource n).val = 1 + n.val := rfl

@[simp] theorem jobSource_val (j : SlotId) : (jobSource j).val = 5 + j.val := rfl

@[simp] theorem windowSource_val (w : WindowId) : (windowSource w).val = 9 + w.val := rfl

theorem sourceClass_node (n : NodeId) : sourceClass (nodeSource n).val = .node := by
  rw [nodeSource_val, sourceClass, if_neg (by omega), if_pos (by omega)]

theorem sourceClass_job (j : SlotId) : sourceClass (jobSource j).val = .job := by
  rw [jobSource_val, sourceClass, if_neg (by omega), if_neg (by omega), if_pos (by omega)]

theorem sourceClass_window (w : WindowId) : sourceClass (windowSource w).val = .window := by
  rw [windowSource_val, sourceClass, if_neg (by omega), if_neg (by omega), if_neg (by omega)]

/-- A job slot's number is found again from its source. -/
theorem slotOf_jobSource (j : SlotId) : Fin.ofNat 4 ((jobSource j).val - 5) = j :=
  Fin.ext (by simp [Fin.ofNat])

/-- A window's number is found again from its source. -/
theorem windowOf_windowSource (w : WindowId) : Fin.ofNat 64 ((windowSource w).val - 9) = w :=
  Fin.ext (by simp [Fin.ofNat])

theorem jobSource_inj {j k : SlotId} : jobSource j = jobSource k ↔ j = k := by
  simp [Fin.ext_iff]

/-- Every source is the device, a node, a job slot or a window (section 9.4). -/
theorem source_cases (i : Fin 73) :
    i = 0 ∨ (∃ n, i = nodeSource n) ∨ (∃ j, i = jobSource j) ∨ ∃ w, i = windowSource w := by
  by_cases hdevice : i.val = 0
  · exact .inl (Fin.ext hdevice)
  · by_cases hnode : i.val ≤ 4
    · exact .inr (.inl ⟨⟨i.val - 1, by omega⟩, Fin.ext (show i.val = 1 + (i.val - 1) by omega)⟩)
    · by_cases hjob : i.val ≤ 8
      · exact .inr (.inr (.inl ⟨⟨i.val - 5, by omega⟩, Fin.ext (show i.val = 5 + (i.val - 5) by omega)⟩))
      · exact .inr (.inr (.inr ⟨⟨i.val - 9, by omega⟩, Fin.ext (show i.val = 9 + (i.val - 9) by omega)⟩))

/-- Some source of a class has a property: the device's one, a node's, a job slot's or a window's. -/
def SourceClass.hasSource (c : SourceClass) (P : Fin 73 → Prop) : Prop :=
  match c with
  | .device => P 0
  | .node => ∃ n, P (nodeSource n)
  | .job => ∃ j, P (jobSource j)
  | .window => ∃ w, P (windowSource w)

theorem SourceClass.hasSource_iff {c : SourceClass} {P : Fin 73 → Prop} :
    c.hasSource P ↔ ∃ i, P i ∧ sourceClass i.val = c := by
  constructor
  · intro h
    cases c with
    | device => exact ⟨0, h, rfl⟩
    | node => exact h.elim fun n hn => ⟨_, hn, sourceClass_node n⟩
    | job => exact h.elim fun j hj => ⟨_, hj, sourceClass_job j⟩
    | window => exact h.elim fun w hw => ⟨_, hw, sourceClass_window w⟩
  · rintro ⟨i, hi, rfl⟩
    obtain rfl | ⟨n, rfl⟩ | ⟨j, rfl⟩ | ⟨w, rfl⟩ := source_cases i
    · exact hi
    · rw [sourceClass_node]
      exact ⟨n, hi⟩
    · rw [sourceClass_job]
      exact ⟨j, hi⟩
    · rw [sourceClass_window]
      exact ⟨w, hi⟩

/-- What holds of some class holds of one of the four. -/
theorem SourceClass.exists_iff {P : SourceClass → Prop} : (∃ c, P c) ↔ P .device ∨ P .node ∨ P .job ∨ P .window := by
  refine ⟨fun ⟨c, hc⟩ => ?_, ?_⟩
  · cases c with
    | device => exact .inl hc
    | node => exact .inr (.inl hc)
    | job => exact .inr (.inr (.inl hc))
    | window => exact .inr (.inr (.inr hc))
  · rintro (h | h | h | h) <;> exact ⟨_, h⟩

/-! ### What is pending -/

section Pending

variable {s : State}

theorem mem_pendingSources {i : Fin 73} : i ∈ s.pendingSources ↔ s.reasons i ≠ 0 := by
  simp [State.pendingSources]

theorem pendingSources_eq_nil (h : ∀ i, s.reasons i = 0) : s.pendingSources = [] :=
  List.eq_nil_iff_forall_not_mem.2 fun i hi => mem_pendingSources.1 hi (h i)

/-- The sources with a reason pending stand in order of source number, so the lowest of them comes first (R158). -/
theorem pendingSources_eq_cons {i : Fin 73} (hi : s.reasons i ≠ 0) (hfirst : ∀ k < i, s.reasons k = 0) :
    ∃ rest, s.pendingSources = i :: rest := by
  have hmem : i ∈ s.pendingSources := mem_pendingSources.2 hi
  have hsorted : s.pendingSources.Pairwise (· < ·) := (List.pairwise_lt_finRange 73).filter _
  cases hlist : s.pendingSources with
  | nil => rw [hlist] at hmem; cases hmem
  | cons j rest =>
    have hj : s.reasons j ≠ 0 := mem_pendingSources.1 (hlist ▸ List.mem_cons_self)
    rw [hlist] at hmem hsorted
    obtain rfl | hrest := List.mem_cons.1 hmem
    · exact ⟨rest, rfl⟩
    · exact absurd (hfirst j ((List.pairwise_cons.1 hsorted).1 i hrest)) hj

/-- A class shows in the summary when some source of it has a reason pending (R157). -/
theorem classPending_iff {c : SourceClass} : s.classPending c = true ↔ c.hasSource fun i => s.reasons i ≠ 0 := by
  simp only [State.classPending, List.any_eq_true, mem_pendingSources, beq_iff_eq, SourceClass.hasSource_iff]

/-- ATTN is set by the classes that have a reason pending and their enable on (R157). -/
theorem attn_iff :
    s.attn = true ↔ ∃ c, s.settings.enable c = true ∧ c.hasSource fun i => s.reasons i ≠ 0 := by
  simp only [State.attn, List.any_eq_true, mem_pendingSources, SourceClass.hasSource_iff]
  exact ⟨fun ⟨i, hi, hc⟩ => ⟨_, hc, i, hi, rfl⟩, fun ⟨_, hc, i, hi, hclass⟩ => ⟨i, hi, hclass ▸ hc⟩⟩

/-- ATTN with nothing pending is clear (R157). -/
theorem attn_of_none_pending (h : ∀ i, s.reasons i = 0) : s.attn = false := by
  rw [State.attn, pendingSources_eq_nil h]
  rfl

end Pending

/-! ### The bits of STATUS and of the summary (section 11.1) -/

theorem summary_bits (a b c d : Bool) :
    let x := slotOf (flagBit a 1 + flagBit b 2 + flagBit c 4 + flagBit d 8)
    x.getLsbD 0 = a ∧ x.getLsbD 1 = b ∧ x.getLsbD 2 = c ∧ x.getLsbD 3 = d := by
  revert a b c d
  decide

theorem status_bits (a b c d e f : Bool) :
    let x := slotOf (flagBit a 1 + flagBit b 2 + flagBit c 4 + flagBit d 8 + flagBit e 16 + flagBit f 32)
    x.getLsbD 0 = a ∧ x.getLsbD 1 = b ∧ x.getLsbD 2 = c ∧ x.getLsbD 3 = d ∧ x.getLsbD 4 = e ∧ x.getLsbD 5 = f := by
  revert a b c d e f
  decide

end Sys2Proof.Machine
end

section
/-! SUPPORT. The management port: slot writes and CONTROL (sections 9.1 and 9.2). -/

namespace Sys2Proof.Machine

/-! ### Slot writes -/

section Writes

variable {s : State}

theorem busy_iff : s.busy = true ↔ s.booting = true ∨ s.taken.isSome = true := by
  simp [State.busy]

theorem not_busy_of_portFree (h : s.portFree) : ¬s.busy = true := by
  obtain ⟨-, hbooting, htaken⟩ := h
  simp [State.busy, hbooting, htaken]

theorem writeCommand_busy (h : s.busy = true) (code : Word) : s.writeCommand code = { s with overrun := true } :=
  if_pos h

theorem writeCommand_free (h : s.portFree) (code : Word) : s.writeCommand code =
    { s with commandSlot := code, taken := some ⟨code, s.params⟩, err := false, cmdDone := false } :=
  if_neg (not_busy_of_portFree h)

theorem writeParam_busy (h : s.busy = true) (k : Fin 8) (value : Word) :
    s.writeParam k value = { s with overrun := true } :=
  if_pos h

theorem writeParam_free (h : s.portFree) (k : Fin 8) (value : Word) :
    s.writeParam k value = { s with params := Table.put s.params k value } :=
  if_neg (not_busy_of_portFree h)

/-- The PARAM slots are slots 3 to 10 (section 9.1). -/
theorem writeSlot_param (s : State) {slot : Fin 16} {k : Fin 8} (h : slot.val = k.val + 3) (value : Word) :
    s.writeSlot slot value = s.writeParam k value := by
  obtain ⟨number, hlt⟩ := slot
  subst h
  match k with
  | 0 | 1 | 2 | 3 | 4 | 5 | 6 | 7 => rfl

/-- Slots 1 and 11 to 15 are read-only (R150). -/
theorem writeSlot_readOnly (s : State) {slot : Fin 16} (h : slot.val ∈ [1, 11, 12, 13, 14, 15]) (value : Word) :
    s.writeSlot slot value = s := by
  match slot with
  | 1 | 11 | 12 | 13 | 14 | 15 => rfl
  | 0 | 2 | 3 | 4 | 5 | 6 | 7 | 8 | 9 | 10 => simp at h

theorem exec_paramWrite (s : State) (slot : Fin 16) (value : Word) :
    exec (.paramWrite slot value) s = event (fun s => s.writeSlot slot value) s := rfl

/-- A command row of a free port takes its command with the parameters of that moment (R151, R153). -/
theorem exec_takes {i : Instr} {c : Cmd} (hi : commandRow i = some c.code) (h : s.portFree) :
    ∃ t, exec i s = .next t ∧ t.busy = true ∧ t.completing c s.params := by
  obtain ⟨hbusy, hcompleting⟩ := writeCommand_completing h c
  exact ⟨_, (exec_of_commandRow hi s).trans (event_free h.1 _), hbusy, hcompleting⟩

end Writes

/-! ### CONTROL -/

section Control

variable {s : State} {value : Word}

/-- The three CONTROL rows are one write (log 20). -/
theorem exec_control (h : s.resetHeld = false) (value : Word) :
    exec (.clearOverrun value) s = .next (s.writeControl value) ∧
      exec (.clearCmdDone value) s = .next (s.writeControl value) ∧
      exec (.softReset value) s = .next (s.writeControl value) :=
  have hwrite := event_free h fun s => s.writeControl value
  ⟨hwrite, hwrite, hwrite⟩

theorem writeControl_clears (h : value.getLsbD 7 = false) : s.writeControl value =
    { s with overrun := s.overrun && !value.getLsbD 0, cmdDone := s.cmdDone && !value.getLsbD 1 } :=
  if_neg (Bool.eq_false_iff.1 h)

theorem writeControl_softReset (h : value.getLsbD 7 = true) : s.writeControl value = s.softReset :=
  if_pos h

/-- A CONTROL value that names no action changes nothing (R154). -/
theorem writeControl_none (h0 : value.getLsbD 0 = false) (h1 : value.getLsbD 1 = false)
    (h7 : value.getLsbD 7 = false) : s.writeControl value = s := by
  simp only [writeControl_clears h7, h0, h1, Bool.not_false, Bool.and_true]

/-- With CMD_DONE clear MINT follows the attention flags alone (R157). -/
theorem mint_of_not_cmdDone (h : s.cmdDone = false) : s.mint = s.attn := by
  rw [State.mint, h, Bool.false_and, Bool.or_false]

/-- Soft reset record by record (R164): the latched parameters and code DONE come back with an abandoned command. -/
theorem softReset_eq (s : State) : s.softReset =
    { s with
      taken := none
      errorCode := if s.taken.isSome then .done else s.errorCode
      err := s.err && s.taken.isNone
      params := (s.taken.map fun c => c.params).getD s.params
      overrun := false
      cmdDone := false
      attention := Table.fill 73 0
      settings := { s.settings with
        deviceEnable := true
        nodeEnable := true
        jobEnable := true
        windowEnable := true
        commandEnable := true } } := by
  unfold State.softReset State.abandonCommand
  cases htaken : s.taken with
  | none => simp [Settings.enablesOn, htaken]
  | some c => simp [Settings.enablesOn]

theorem softReset_mint (s : State) : s.softReset.mint = false :=
  (mint_of_not_cmdDone rfl).trans (attn_of_none_pending fun i => Table.get_fill 73 0 i)

theorem softReset_busy (s : State) : s.softReset.busy = s.booting := by
  rw [softReset_eq]
  exact Bool.or_false _

end Control

end Sys2Proof.Machine
end

section
/-! SUPPORT. The completion event: every command is refused with no record changed, or carried out (R152, section
9.2.1). -/

namespace Sys2Proof.Machine

/-- What a completion can be of a state: a refusal, which leaves it as it is, or a command carried out (R152, section
9.2.1). -/
inductive State.Answers (s : State) : Completion → Prop where
  | refused (code : ResultCode) (results : List Word) : s.Answers (refuse s code results)
  | done (t : State) (results : List Word) : s.Answers (carriedOut t results)

theorem State.Answers.state_of_ne_done {s : State} {r : Completion} (h : s.Answers r) (hc : r.code ≠ .done) :
    r.state = s := by
  cases h with
  | refused code results => rfl
  | done t results => exact absurd rfl hc

section Answers

variable (p : Vector Word 8) (s : State)

theorem completeSetTimers_answers : s.Answers (completeSetTimers p s) := by
  unfold completeSetTimers
  split
  · exact .refused ..
  · exact .done ..

theorem completeSetPolicy_answers : s.Answers (completeSetPolicy p s) := by
  unfold completeSetPolicy
  split
  · exact .refused ..
  · exact .done ..

theorem completeGetAttention_answers : s.Answers (completeGetAttention p s) := by
  unfold completeGetAttention
  split <;> exact .done ..

theorem completeAckAttention_answers : s.Answers (completeAckAttention p s) := by
  unfold completeAckAttention
  split
  · simp only []
    split
    · exact .refused ..
    · exact .done ..
  · exact .refused ..

theorem completeCreateWindow_answers : s.Answers (completeCreateWindow p s) := by
  unfold completeCreateWindow
  split
  · exact .refused ..
  · split
    · exact .refused ..
    · split
      · exact .refused ..
      · split
        · exact .refused ..
        · split
          · split <;> exact .refused ..
          · exact .done ..

theorem completeQueryWindow_answers : s.Answers (completeQueryWindow p s) := by
  unfold completeQueryWindow
  split
  · exact .refused ..
  · exact .done ..

theorem completeQueryFree_answers : s.Answers (completeQueryFree p s) := by
  unfold completeQueryFree
  simp only []
  split
  · exact .done ..
  · exact .refused ..

theorem placeGrant_answers (w : WindowId) (v : Live) (n : NodeId) (base : Nat) (r : Rights) :
    s.Answers (placeGrant w v n base r s) := by
  unfold placeGrant
  split
  · exact .refused ..
  · split_ifs
    · exact .refused ..
    · split
      · exact .refused ..
      · exact .done ..

theorem completeGrant_answers : s.Answers (completeGrant p s) := by
  unfold completeGrant
  split
  · exact .refused ..
  · split
    · exact .refused ..
    · exact .refused ..
    · split_ifs
      · exact .refused ..
      · exact .refused ..
      · exact placeGrant_answers ..

theorem completeSetRights_answers : s.Answers (completeSetRights p s) := by
  unfold completeSetRights
  split
  · exact .refused ..
  · split
    · exact .refused ..
    · exact .refused ..
    · split
      · exact .refused ..
      · split_ifs
        · exact .refused ..
        · exact .done ..

theorem completeQueryGrant_answers : s.Answers (completeQueryGrant p s) := by
  unfold completeQueryGrant
  split
  · exact .refused ..
  · split
    · exact .refused ..
    · split
      · exact .refused ..
      · exact .done ..

theorem lookupAddress_answers (n : NodeId) (addr : Nat) : s.Answers (lookupAddress n addr s) := by
  unfold lookupAddress
  split_ifs
  · exact .refused ..
  · split
    · exact .done ..
    · exact .refused ..

theorem lookupIndex_answers (n : NodeId) (index : Nat) : s.Answers (lookupIndex n index s) := by
  unfold lookupIndex
  split
  · exact .done ..
  · exact .refused ..

theorem completeLookup_answers : s.Answers (completeLookup p s) := by
  unfold completeLookup
  split
  · exact .refused ..
  · split_ifs
    · exact lookupAddress_answers ..
    · exact lookupIndex_answers ..
    · exact .refused ..

theorem completeAdmitNode_answers : s.Answers (completeAdmitNode p s) := by
  unfold completeAdmitNode
  split
  · exact .refused ..
  · split_ifs
    · exact .done ..
    · exact .refused ..

theorem completeFenceNode_answers : s.Answers (completeFenceNode p s) := by
  unfold completeFenceNode
  split
  · exact .refused ..
  · split_ifs
    · exact .done ..
    · exact .refused ..

theorem completeReadFaultCapture_answers : s.Answers (completeReadFaultCapture p s) := by
  unfold completeReadFaultCapture
  split
  · exact .refused ..
  · exact .done ..

theorem completeReleaseFaultCapture_answers : s.Answers (completeReleaseFaultCapture p s) := by
  unfold completeReleaseFaultCapture
  split
  · exact .refused ..
  · exact .done ..

theorem completeSuspend_answers : s.Answers (completeSuspend p s) := by
  unfold completeSuspend
  split
  · exact .refused ..
  · exact .done ..

theorem completeResume_answers : s.Answers (completeResume p s) := by
  unfold completeResume
  split
  · exact .refused ..
  · exact .done ..

theorem completeRevoke_answers : s.Answers (completeRevoke p s) := by
  unfold completeRevoke
  split
  · exact .refused ..
  · split
    · exact .refused ..
    · split
      · exact .refused ..
      · split
        · exact .refused ..
        · exact .refused ..
        · split_ifs <;> exact .done ..

theorem completeRetire_answers : s.Answers (completeRetire p s) := by
  unfold completeRetire
  split
  · exact .refused ..
  · exact .done ..

theorem completeMigrate_answers : s.Answers (completeMigrate p s) := by
  unfold completeMigrate
  split
  · exact .refused ..
  · split
    · exact .refused ..
    · split
      · exact .refused ..
      · split
        · exact .refused ..
        · split
          · split <;> exact .refused ..
          · exact .done ..

theorem completeAbortJob_answers : s.Answers (completeAbortJob p s) := by
  unfold completeAbortJob
  split
  · exact .refused ..
  · split
    · exact .done ..
    all_goals exact .refused ..

theorem completeQueryJob_answers : s.Answers (completeQueryJob p s) := by
  unfold completeQueryJob
  split
  · exact .refused ..
  · exact .done ..

/-- Every command is refused with the state as it is, or carried out with code DONE (section 9.2.1). -/
theorem complete_answers (c : Cmd) : s.Answers (complete c p s) := by
  cases c with
  | nop => exact .done ..
  | identify => exact .done ..
  | setTimers => exact completeSetTimers_answers p s
  | setPolicy => exact completeSetPolicy_answers p s
  | getAttention => exact completeGetAttention_answers p s
  | ackAttention => exact completeAckAttention_answers p s
  | createWindow => exact completeCreateWindow_answers p s
  | queryWindow => exact completeQueryWindow_answers p s
  | queryFree => exact completeQueryFree_answers p s
  | grant => exact completeGrant_answers p s
  | setRights => exact completeSetRights_answers p s
  | queryGrant => exact completeQueryGrant_answers p s
  | lookup => exact completeLookup_answers p s
  | admitNode => exact completeAdmitNode_answers p s
  | fenceNode => exact completeFenceNode_answers p s
  | readFaultCapture => exact completeReadFaultCapture_answers p s
  | releaseFaultCapture => exact completeReleaseFaultCapture_answers p s
  | suspend => exact completeSuspend_answers p s
  | resume => exact completeResume_answers p s
  | revoke => exact completeRevoke_answers p s
  | retire => exact completeRetire_answers p s
  | migrate => exact completeMigrate_answers p s
  | abortJob => exact completeAbortJob_answers p s
  | queryJob => exact completeQueryJob_answers p s

end Answers

section Completion

variable {s : State}

theorem runTaken_answers (t : Taken) (s : State) : s.Answers (runTaken t s) := by
  unfold runTaken
  split
  · exact complete_answers ..
  · exact .refused ..

theorem commandCompletion_of_taken {t : Taken} (hheld : s.resetHeld = false) (ht : s.taken = some t) :
    exec .commandCompletion s =
      .next ((runTaken t s).state.completed (runTaken t s).code (runTaken t s).results) := by
  simp only [exec, execCommandCompletion, event_free hheld, ht]
  rfl

/-- With no command in progress there is none to complete (log 2). -/
theorem commandCompletion_of_none (ht : s.taken = none) : exec .commandCompletion s = .next s := by
  simp only [exec, execCommandCompletion, event, ht, ite_self]

/-- The code that COMMAND names a command by is the command's own (R171). -/
theorem ofCode_eq_none {code : Word} (h : ∀ c : Cmd, c.code ≠ code) : Cmd.ofCode code = none :=
  List.find?_eq_none.2 fun c _ => by simpa using h c

end Completion

end Sys2Proof.Machine
end

section
/-! SUPPORT. The port's own commands at their completion events, and the statements on the port (chapter 9). -/

namespace Sys2Proof.Machine

/-! ### SET POLICY and IDENTIFY -/

/-- SET POLICY tests six parameters, and each of them stands for one of the six slots (R162). -/
theorem policyFlag_over_iff {p : Vector Word 8} :
    (1 < param p 0 ∨ 1 < param p 1 ∨ 1 < param p 2 ∨ 1 < param p 3 ∨ 1 < param p 4 ∨ 1 < param p 5) ↔
      ∃ k : Fin 8, k.val < 6 ∧ 1 < param p k := by
  constructor
  · rintro (h | h | h | h | h | h) <;> exact ⟨_, by decide, h⟩
  · rintro ⟨k, hk, h⟩
    match k with
    | 0 => exact .inl h
    | 1 => exact .inr (.inl h)
    | 2 => exact .inr (.inr (.inl h))
    | 3 => exact .inr (.inr (.inr (.inl h)))
    | 4 => exact .inr (.inr (.inr (.inr (.inl h))))
    | 5 => exact .inr (.inr (.inr (.inr (.inr h))))
    | 6 | 7 => exact absurd hk (by decide)

section SetPolicy

variable {s : State} {p : Vector Word 8}

theorem completeSetPolicy_refused (h : ∃ k : Fin 8, k.val < 6 ∧ 1 < param p k) :
    completeSetPolicy p s = refuse s .badParam [] :=
  if_pos (policyFlag_over_iff.2 h)

/-- Six flags in range set the six settings, and those that stood before are returned (R162). -/
theorem completeSetPolicy_set (h : ∀ k : Fin 8, k.val < 6 → param p k ≤ 1) :
    completeSetPolicy p s = carriedOut
      { s with settings := { s.settings with
          fenceOnRevokeTimeout := param p 0 == 1
          deviceEnable := param p 1 == 1
          nodeEnable := param p 2 == 1
          jobEnable := param p 3 == 1
          windowEnable := param p 4 == 1
          commandEnable := param p 5 == 1 } }
      [flagSlot s.settings.fenceOnRevokeTimeout, flagSlot s.settings.deviceEnable, flagSlot s.settings.nodeEnable,
        flagSlot s.settings.jobEnable, flagSlot s.settings.windowEnable, flagSlot s.settings.commandEnable] :=
  if_neg fun hover => by
    obtain ⟨k, hk, hlt⟩ := policyFlag_over_iff.1 hover
    exact absurd (h k hk) (not_le.2 hlt)

end SetPolicy

theorem bootCode_lt (c : BootCode) : c.code < 256 := by
  cases c <;> decide

theorem bootEntry_lt (e : BootEntry) : e.code < 256 := by
  cases e with
  | settings => decide
  | window i => exact i.isLt.trans (by decide)

/-- The boot status in its slot: the code in the low byte, the entry or FFh in the next (section 11.1.2, log 30). -/
theorem bootStatus_word (b : BootStatus) :
    b.word = slotOf (b.code.code + 256 * (b.entry.map BootEntry.code).getD 255) := by
  have hentry : (b.entry.map BootEntry.code).getD 255 < 256 := by
    cases b.entry with
    | none => decide
    | some e => exact bootEntry_lt e
  rw [BootStatus.word, byteOr, packBytes_of_lt (bootCode_lt _) hentry (by decide) (by decide)]
  rfl

/-! ### GET ATTENTION -/

section GetAttention

variable (s : State)

theorem sourceDetail_device : s.sourceDetail 0 = s.bootStatus.word := rfl

theorem sourceDetail_job (j : SlotId) : s.sourceDetail (jobSource j) = slotOf (s.slot j).code := by
  simp only [State.sourceDetail, sourceClass_job, slotOf_jobSource]

theorem sourceDetail_window (w : WindowId) :
    s.sourceDetail (windowSource w) = slotOf (s.window w).generation.toNat := by
  simp only [State.sourceDetail, sourceClass_window, windowOf_windowSource]

variable {s} {p : Vector Word 8}

theorem completeGetAttention_none (h : ∀ i, s.reasons i = 0) :
    completeGetAttention p s = carriedOut s [absentSlot, 0, 0, 0] := by
  simp only [completeGetAttention, pendingSources_eq_nil h]

/-- The lowest source with a reason pending is reported, with the number of such sources (R158). -/
theorem completeGetAttention_first {i : Fin 73} (hi : s.reasons i ≠ 0) (hfirst : ∀ k < i, s.reasons k = 0) :
    completeGetAttention p s = carriedOut s
      [slotOf i.val, slotOf (s.reasons i).toNat, s.sourceDetail i,
        slotOf ((List.finRange 73).filter fun k => s.reasons k != 0).length] := by
  obtain ⟨rest, hrest⟩ := pendingSources_eq_cons hi hfirst
  have hcount : ((List.finRange 73).filter fun k => s.reasons k != 0).length = rest.length + 1 :=
    congrArg List.length hrest
  simp only [completeGetAttention, hrest, hcount]

end GetAttention

/-! ### ACK ATTENTION -/

section AckAttention

/-- A FINISHED slot is released (R146). -/
theorem releaseSlot_finished {s : State} {j : SlotId} (h : (s.slot j).isFinished = true) :
    s.releaseSlot j = s.setSlot j .idle := by
  unfold State.releaseSlot
  cases hslot : s.slot j with
  | finished job outcome => rfl
  | idle | copying | aborting | drainingOld => rw [hslot] at h; cases h

/-- A slot that is not FINISHED is not released (R146). -/
theorem releaseSlot_unfinished {s : State} {j : SlotId} (h : ¬(s.slot j).isFinished = true) : s.releaseSlot j = s := by
  unfold State.releaseSlot
  cases hslot : s.slot j with
  | finished job outcome => rw [hslot] at h; exact absurd rfl h
  | idle | copying | aborting | drainingOld => rfl

theorem slot_releaseSlot (s : State) (j k : SlotId) : (s.releaseSlot j).slot k =
    if j = k ∧ (s.slot k).isFinished = true then .idle else s.slot k := by
  by_cases hfinished : (s.slot j).isFinished = true
  · rw [releaseSlot_finished hfinished, slot_setSlot]
    refine if_congr ⟨fun hk => ⟨hk, hk ▸ hfinished⟩, And.left⟩ rfl rfl
  · rw [releaseSlot_unfinished hfinished, if_neg]
    rintro ⟨rfl, hk⟩
    exact hfinished hk

variable (s : State) (i : Fin 73) (named : BitVec 6)

/-- An acknowledgement changes the reasons of its source, and job slots alone besides (R159, R146). -/
theorem ackSource_eq : s.ackSource i named =
    { s with
      attention := Table.put s.attention i (s.reasons i &&& ~~~named)
      slots := (s.ackSource i named).slots } := by
  unfold State.ackSource
  by_cases hjob : sourceClass i.val = .job ∧ named ≠ 0
  · simp only [if_pos hjob]
    generalize Fin.ofNat 4 (i.val - 5) = j
    by_cases hfinished : ((s.setReasons i (s.reasons i &&& ~~~named)).slot j).isFinished = true
    · rw [releaseSlot_finished hfinished]
      rfl
    · rw [releaseSlot_unfinished hfinished]
      rfl
  · simp only [if_neg hjob]
    rfl

/-- A FINISHED slot is IDLE after a reason of it is acknowledged; every other slot stays (R146). -/
theorem slot_ackSource (j : SlotId) : (s.ackSource i named).slot j =
    if i = jobSource j ∧ named ≠ 0 ∧ (s.slot j).isFinished = true then .idle else s.slot j := by
  simp only [State.ackSource]
  by_cases hjob : sourceClass i.val = .job ∧ named ≠ 0
  · obtain ⟨k, rfl⟩ := (SourceClass.hasSource_iff (c := .job) (P := fun x => i = x)).2 ⟨i, rfl, hjob.1⟩
    rw [if_pos hjob, slotOf_jobSource, slot_releaseSlot, setReasons_slot]
    exact if_congr (and_congr jobSource_inj.symm (and_iff_right hjob.2).symm) rfl rfl
  · rw [if_neg hjob, setReasons_slot, if_neg]
    rintro ⟨rfl, hnamed, -⟩
    exact hjob ⟨sourceClass_job j, hnamed⟩

/-- A word whose bits all stand below bit 6 names a reason unless it is 0. -/
theorem setWidth_six_ne_zero {word : Word} (h : word.toNat < 64) : word.setWidth 6 ≠ 0 ↔ word ≠ 0 := by
  refine not_congr ?_
  rw [← BitVec.toNat_inj, ← BitVec.toNat_inj, BitVec.toNat_setWidth, Nat.mod_eq_of_lt h]
  rfl

/-- The named reasons lie in a class's reasons bit by bit (R159). -/
theorem named_within_iff {word : Word} {mask : BitVec 6} :
    (word.toNat < 64 ∧ word.setWidth 6 &&& ~~~mask = 0) ↔
      ∀ b, word.getLsbD b = true → mask.getLsbD b = true := by
  constructor
  · rintro ⟨hlt, hand⟩ b hb
    have hb6 : b < 6 := by
      by_contra hge
      have hpow : word.toNat < 2 ^ b :=
        hlt.trans_le (Nat.pow_le_pow_right (n := 2) (i := 6) (by decide) (not_lt.1 hge))
      exact absurd hb (by simp [BitVec.getLsbD, Nat.testBit_lt_two_pow hpow])
    have hbit := congrArg (fun x => x.getLsbD b) hand
    simpa [hb, hb6] using hbit
  · intro h
    have hhigh : ∀ b, 6 ≤ b → word.getLsbD b = false := fun b hge => by
      by_contra hb
      have hmask := h b (by simpa using hb)
      rw [BitVec.getLsbD_of_ge mask b hge] at hmask
      cases hmask
    refine ⟨Nat.lt_pow_two_of_testBit word.toNat (n := 6) hhigh, BitVec.eq_of_getLsbD_eq fun b hb => ?_⟩
    rw [BitVec.getLsbD_and, BitVec.getLsbD_setWidth, BitVec.getLsbD_not]
    cases hword : word.getLsbD b with
    | false => simp
    | true => simp [hb, h b hword]

variable {s : State} {p : Vector Word 8} {i : Fin 73} (hi : param p 0 = i.val)
include hi

/-- ACK ATTENTION names its source in P0 and the reasons to clear in P1 (R159). -/
theorem completeAckAttention_eq : completeAckAttention p s =
    if 64 ≤ param p 1 ∨ (Table.get p 1).setWidth 6 &&& ~~~(sourceClass i.val).mask ≠ 0 then refuse s .badParam []
    else
      carriedOut (s.ackSource i ((Table.get p 1).setWidth 6))
        [slotOf (s.reasons i).toNat, slotOf (s.reasons i &&& ~~~((Table.get p 1).setWidth 6)).toNat] := by
  have hnamed : BitVec.ofNat 6 (param p 1) = (Table.get p 1).setWidth 6 := BitVec.ofNat_toNat ..
  rw [completeAckAttention, dif_pos (hi ▸ i.isLt)]
  simp only [hnamed, hi]

/-- A reason that the source's class does not have is refused (R159). -/
theorem completeAckAttention_refused
    (h : ∃ b, (Table.get p 1).getLsbD b = true ∧ (sourceClass i.val).mask.getLsbD b = false) :
    completeAckAttention p s = refuse s .badParam [] := by
  rw [completeAckAttention_eq hi, if_pos]
  by_contra hwithin
  rw [not_or, not_le, not_not] at hwithin
  obtain ⟨b, hb, hmask⟩ := h
  exact absurd (named_within_iff.1 hwithin b hb) (Bool.eq_false_iff.1 hmask)

/-- Reasons of the class are cleared on the one source, and its reasons before and after are returned (R159). -/
theorem completeAckAttention_cleared
    (h : ∀ b, (Table.get p 1).getLsbD b = true → (sourceClass i.val).mask.getLsbD b = true) :
    completeAckAttention p s = carriedOut (s.ackSource i ((Table.get p 1).setWidth 6))
      [slotOf (s.reasons i).toNat, slotOf (s.reasons i &&& ~~~((Table.get p 1).setWidth 6)).toNat] := by
  obtain ⟨hlt, hand⟩ := named_within_iff.2 h
  rw [completeAckAttention_eq hi, if_neg]
  rintro (hle | hne)
  · exact absurd hlt (not_lt.2 hle)
  · exact hne hand

end AckAttention

/-! ### The statements -/

/-- Settles O6: a command row is a write to COMMAND, which a free port takes. -/
theorem commandIsTaken : Obligations.CommandIsTaken := by
  intro i code s hi h
  rw [exec_of_commandRow hi, event_free h.1, writeCommand_free h]

/-- Settles O7: each slot by its kind, and each write by whether the port is busy. -/
theorem slotWritesTakeEffect : Obligations.SlotWritesTakeEffect := by
  refine ⟨fun s hheld hbusy => ⟨fun i code hi => ?_, fun slot value hlow hhigh => ?_⟩, fun s slot k value h hk => ?_,
    fun s slot value hslot => ?_, fun s value => ⟨rfl, rfl⟩⟩
  · rw [exec_of_commandRow hi, event_free hheld, writeCommand_busy (busy_iff.2 hbusy)]
  · have hk : slot.val = (⟨slot.val - 3, by omega⟩ : Fin 8).val + 3 := (Nat.sub_add_cancel hlow).symm
    rw [exec_paramWrite, event_free hheld, writeSlot_param s hk, writeParam_busy (busy_iff.2 hbusy)]
  · rw [exec_paramWrite, event_free h.1, writeSlot_param s hk, writeParam_free h]
  · rw [exec_paramWrite, event, writeSlot_readOnly s hslot, ite_self]

/-- Settles O8: the three rows are one write, which is a soft reset or clears the flags its value names. -/
theorem controlWriteActs : Obligations.ControlWriteActs := by
  refine ⟨fun s value hheld => ?_, fun s value hheld h7 => ?_⟩
  · obtain ⟨hoverrun, hcmdDone, hreset⟩ := exec_control hheld value
    refine ⟨_, hoverrun, hcmdDone, hreset, fun h7 => ⟨writeControl_clears h7, fun h1 => ?_⟩, fun h7 => ?_,
      writeControl_none⟩
    · rw [writeControl_clears h7]
      exact mint_of_not_cmdDone (by rw [h1, Bool.not_true, Bool.and_false])
    · rw [writeControl_softReset h7]
      exact ⟨rfl, rfl⟩
  · obtain ⟨-, -, hreset⟩ := exec_control hheld value
    rw [writeControl_softReset h7] at hreset
    exact ⟨_, hreset, softReset_eq s, softReset_mint s, softReset_busy s⟩

/-- Settles O9: what was taken is answered by a refusal of the state as it is or is carried out; an unknown code is
refused. -/
theorem completionWritesSlots : Obligations.CompletionWritesSlots := by
  refine ⟨fun s t hheld ht => ?_, fun s code p hheld ht hcode => ?_, fun s ht => commandCompletion_of_none ht⟩
  · exact ⟨_, _, _, commandCompletion_of_taken hheld ht, (runTaken_answers t s).state_of_ne_done⟩
  · have hunknown : runTaken ⟨code, p⟩ s = refuse s .badCommand [] := by simp only [runTaken, ofCode_eq_none hcode]
    rw [commandCompletion_of_taken hheld ht, hunknown]
    rfl

/-- Settles O10: NOP is taken as every command row is, and is carried out on the state as it is. -/
theorem nopCompletes : Obligations.NopCompletes :=
  ⟨fun _ h => exec_takes rfl h, fun _ _ h => commandCompletion_of_carriedOut h rfl⟩

/-- Settles O11: the three bounds of R161, then the three settings. -/
theorem setTimersCompletes : Obligations.SetTimersCompletes := by
  refine ⟨fun s h => exec_takes rfl h, fun s p h => ⟨fun h0 h1 h2 => ?_, fun hbad => ?_⟩⟩
  · refine commandCompletion_of_carriedOut h (if_neg ?_)
    rw [not_or, not_or]
    exact ⟨not_lt.2 h0, not_lt.2 h1, not_lt.2 h2⟩
  · exact commandCompletion_of_refuse h (if_pos hbad)

/-- Settles O12: the six flags of R162, then the six settings, which MINT follows. -/
theorem setPolicyCompletes : Obligations.SetPolicyCompletes := by
  refine ⟨fun s h => exec_takes rfl h, fun s p h => ⟨fun hflags => ?_, fun hbad => ?_⟩⟩
  · have hset := commandCompletion_of_carriedOut h (completeSetPolicy_set (s := s) hflags)
    exact ⟨_, hset, rfl, rfl, rfl⟩
  · exact commandCompletion_of_refuse h (completeSetPolicy_refused hbad)

/-- Settles O13: the report of R163, with the boot status and the fixed counts packed byte by byte. -/
theorem identifyReports : Obligations.IdentifyReports := by
  intro s p h
  rw [commandCompletion_of_carriedOut h (rs := _) rfl, bootStatus_word]
  rfl

/-- Settles O14: GET ATTENTION by the first pending source; ACK ATTENTION by the bits it names. -/
theorem attentionCommandsComplete : Obligations.AttentionCommandsComplete := by
  refine ⟨fun s p h => ⟨fun hnone => ?_, fun i hi hfirst => ?_⟩, fun s p h => ⟨fun hp => ?_, fun i hi => ⟨fun hbad => ?_,
    fun hnamed => ?_⟩⟩⟩
  · exact commandCompletion_of_carriedOut h (completeGetAttention_none (p := p) hnone)
  · refine ⟨s.sourceDetail i, commandCompletion_of_carriedOut h (completeGetAttention_first (p := p) hi hfirst), ?_, ?_, ?_⟩
    · intro hdevice
      obtain rfl : i = 0 := Fin.ext hdevice
      exact sourceDetail_device s
    · intro j hj
      obtain rfl : i = jobSource j := Fin.ext hj
      exact sourceDetail_job s j
    · intro w hw
      obtain rfl : i = windowSource w := Fin.ext hw
      exact sourceDetail_window s w
  · exact commandCompletion_of_refuse h (dif_neg (by omega))
  · exact commandCompletion_of_refuse h (completeAckAttention_refused hi hbad)
  · have hcleared := commandCompletion_of_carriedOut h (completeAckAttention_cleared (s := s) hi hnamed)
    rw [ackSource_eq] at hcleared
    refine ⟨_, hcleared, fun j => (slot_ackSource s i _ j).trans (if_congr ?_ rfl rfl)⟩
    exact and_congr Fin.ext_iff (and_congr (setWidth_six_ne_zero (named_within_iff.2 hnamed).1) Iff.rfl)

/-- Settles O15: the summary and ATTN class by class, and each flag as its bit of its slot. -/
theorem outputsFollowAttention : Obligations.OutputsFollowAttention := by
  intro s
  obtain ⟨hdevice, hnode, hjob, hwindow⟩ := summary_bits (s.classPending .device) (s.classPending .node)
    (s.classPending .job) (s.classPending .window)
  obtain ⟨hbusy, hflags⟩ := status_bits s.busy s.err s.attn s.overrun s.booting s.cmdDone
  refine ⟨?_, ?_, ?_, ?_, attn_iff.trans SourceClass.exists_iff, ?_, ?_, hflags⟩
  · exact (Bool.eq_iff_iff.1 hdevice).trans classPending_iff
  · exact (Bool.eq_iff_iff.1 hnode).trans classPending_iff
  · exact (Bool.eq_iff_iff.1 hjob).trans classPending_iff
  · exact (Bool.eq_iff_iff.1 hwindow).trans classPending_iff
  · simp only [State.mint, Bool.or_eq_true, Bool.and_eq_true]
  · exact (Bool.eq_iff_iff.1 hbusy).trans busy_iff

end Sys2Proof.Machine
end

section
/-! SUPPORT. Events while reset is held, device reset with the pool it leaves, and the release (chapter 10). -/

namespace Sys2Proof.Machine

/-! ### Events -/

/-- Every row but the two of the RESET pin is an event of the part (R165). -/
theorem exec_eq_event {i : Instr} (hreset : ∀ cause, i ≠ .deviceReset cause)
    (hrelease : ∀ psz booten, i ≠ .resetRelease psz booten) : ∃ f : State → State, ∀ s, exec i s = event f s := by
  cases i with
  | deviceReset cause => exact absurd rfl (hreset cause)
  | resetRelease psz booten => exact absurd rfl (hrelease psz booten)
  | _ => exact ⟨_, fun _ => rfl⟩

/-- Settles O3: the two rows of the RESET pin answer as they stand, and every other row is an event. -/
theorem eventsAnswerNext : Obligations.EventsAnswerNext := by
  refine ⟨fun i s => ?_, fun i s hheld hreset hrelease => ?_⟩
  · by_cases hreset : ∃ cause, i = .deviceReset cause
    · obtain ⟨cause, rfl⟩ := hreset
      exact ⟨_, rfl⟩
    · by_cases hrelease : ∃ psz booten, i = .resetRelease psz booten
      · obtain ⟨psz, booten, rfl⟩ := hrelease
        exact ⟨_, rfl⟩
      · push Not at hreset hrelease
        obtain ⟨f, hf⟩ := exec_eq_event hreset hrelease
        exact ⟨_, hf s⟩
  · obtain ⟨f, hf⟩ := exec_eq_event hreset hrelease
    rw [hf, event_held hheld]

/-! ### The pool after device reset (R26, R22) -/

/-- A byte that an abandoned operation leaves undefined: one that a WRITE addresses (R26). -/
def PoolOp.abandons (op : PoolOp) (a : Nat) : Prop := op.kind = .write ∧ op.addr ≤ a ∧ a < op.addr + op.len

theorem marked_abandon (p : Pool) (op : PoolOp) (a : Nat) :
    (p.abandon op).marked a = true ↔ p.marked a = true ∨ op.abandons a := by
  unfold Pool.abandon PoolOp.abandons
  cases op.kind with
  | read => simp
  | write => simp

theorem value_abandon {p : Pool} {op : PoolOp} {a : Nat} (h : ¬op.abandons a) (cycle : Nat) :
    (p.abandon op).value cycle a = p.value cycle a := by
  unfold PoolOp.abandons at h
  unfold Pool.abandon
  split
  · rfl
  · rename_i hw
    simp only [hw, true_and] at h
    exact value_spoilWrite_outside (by omega) cycle

theorem marked_foldl_abandon (ops : List PoolOp) (p : Pool) (a : Nat) :
    (ops.foldl Pool.abandon p).marked a = true ↔ p.marked a = true ∨ ∃ op ∈ ops, op.abandons a := by
  induction ops generalizing p with
  | nil => simp
  | cons op ops ih => rw [List.foldl_cons, ih, marked_abandon, List.exists_mem_cons_iff, or_assoc]

theorem value_foldl_abandon {ops : List PoolOp} {a : Nat} (h : ∀ op ∈ ops, ¬op.abandons a) (p : Pool) (cycle : Nat) :
    (ops.foldl Pool.abandon p).value cycle a = p.value cycle a := by
  induction ops generalizing p with
  | nil => rfl
  | cons op ops ih =>
    rw [List.foldl_cons, ih fun x hx => h x (List.mem_cons_of_mem _ hx), value_abandon (h op List.mem_cons_self)]

theorem mem_opsInProgress {s : State} {op : PoolOp} : op ∈ s.opsInProgress ↔ ∃ c, op ∈ s.channel c := by
  simp [State.opsInProgress]

/-- Device reset marks the bytes of the WRITEs in progress and no other (R26). -/
theorem marked_poolAfterReset (s : State) (a : Nat) :
    s.poolAfterReset.marked a = true ↔ s.pool.marked a = true ∨
      ∃ c, ∃ op ∈ s.channel c, op.kind = .write ∧ op.addr ≤ a ∧ a < op.addr + op.len := by
  rw [State.poolAfterReset, marked_foldl_abandon]
  refine or_congr Iff.rfl ⟨fun ⟨op, hop, ha⟩ => ?_, fun ⟨c, op, hop, ha⟩ => ⟨op, mem_opsInProgress.2 ⟨c, hop⟩, ha⟩⟩
  obtain ⟨c, hc⟩ := mem_opsInProgress.1 hop
  exact ⟨c, op, hc, ha⟩

/-- A byte that no WRITE in progress addresses keeps its value through device reset (R22). -/
theorem value_poolAfterReset {s : State} {a : Nat}
    (h : ∀ c, ∀ op ∈ s.channel c, op.kind = .write → a < op.addr ∨ op.addr + op.len ≤ a) (cycle : Nat) :
    s.poolAfterReset.value cycle a = s.pool.value cycle a := by
  refine value_foldl_abandon (fun op hop => ?_) s.pool cycle
  obtain ⟨c, hc⟩ := mem_opsInProgress.1 hop
  rintro ⟨hw, hlow, hhigh⟩
  have := h c op hc hw
  omega

/-! ### The release (R166) -/

/-- The pool sizes of the strap table (R21, R166). -/
theorem granulesOfCode_eq (psz : BitVec 3) :
    granulesOfCode psz =
      if psz = 1 then 4096 else if psz = 2 then 8192 else if psz = 3 then 16384
      else if psz = 4 then 32768 else 2048 := by
  revert psz
  decide

/-- Settles O5: from the pin the pool goes through the abandoned WRITEs one by one; the rest is as the straps say. -/
theorem resetAndReleaseComplete : Obligations.ResetAndReleaseComplete := by
  refine ⟨fun s => ⟨s.poolAfterReset, rfl, marked_poolAfterReset s, fun a ha => value_poolAfterReset ha _⟩,
    fun s => ⟨rfl, fun _ => rfl⟩, fun s psz booten hheld => ⟨s.releaseReset psz booten, ?_, rfl, rfl,
      granulesOfCode_eq psz⟩⟩
  change Host.Outcome.next _ = _
  rw [if_pos hheld]

end Sys2Proof.Machine
end

section
/-! SUPPORT. The reading of the boot image: each part of it read back from its bytes, and the points at which the
reading fails (R167, R173). -/

namespace Sys2Proof.Machine

/-! ### Numbers in the image -/

/-- A number that fits its bytes is the number they spell. -/
theorem leValue_leBytes_of_lt {k v : Nat} (h : v < 256 ^ k) : leValue (leBytes k v) = v := by
  rw [leValue_leBytes, Nat.mod_eq_of_lt h]

theorem length_leBytes (k v : Nat) : (leBytes k v).length = k := by
  induction k generalizing v with
  | zero => rfl
  | succ k ih => exact congrArg (· + 1) (ih _)

theorem toNat_byte_of_lt {v : Nat} (h : v < 256) : (BitVec.ofNat 8 v).toNat = v := by
  rw [BitVec.toNat_ofNat, Nat.mod_eq_of_lt h]

/-! ### Grants -/

/-- Every value of a grant fits the field that carries it (section 11.3). -/
def ImageGrant.fits (g : ImageGrant) : Prop := g.node < 256 ∧ g.base < nodeSpace ∧ g.rights < 256

theorem readGrants_cons {g : ImageGrant} (h : g.fits) (k : Nat) (tail : List Byte) :
    readGrants (k + 1) (g.encode ++ tail) = (readGrants k tail).map fun x => (g :: x.1, x.2) := by
  obtain ⟨hnode, hbase, hrights⟩ := h
  have hb : leValue (leBytes 5 g.base) = g.base := leValue_leBytes_of_lt hbase
  simp only [leBytes] at hb
  simp only [ImageGrant.encode, leBytes, List.cons_append, List.nil_append, readGrants, hb, toNat_byte_of_lt hnode,
    toNat_byte_of_lt hrights]

/-- Grants read back as written. -/
theorem readGrants_encode {gs : List ImageGrant} (h : ∀ g ∈ gs, g.fits) (tail : List Byte) :
    readGrants gs.length (gs.flatMap ImageGrant.encode ++ tail) = some (gs, tail) := by
  induction gs with
  | nil => rfl
  | cons g gs ih =>
    rw [List.flatMap_cons, List.append_assoc, List.length_cons, readGrants_cons (h g List.mem_cons_self),
      ih fun x hx => h x (List.mem_cons_of_mem _ hx)]
    rfl

/-- A grant takes seven bytes: too few of them are no grants. -/
theorem readGrants_short {k : Nat} {bytes : List Byte} (h : bytes.length < 7 * k) : readGrants k bytes = none := by
  fun_induction readGrants k bytes with
  | case1 => omega
  | case2 k n b0 b1 b2 b3 b4 r rest ih =>
    simp only [List.length_cons] at h
    rw [ih (by omega)]
    rfl
  | case3 => rfl

/-! ### Windows -/

/-- Every value of a window fits the field that carries it (section 11.3). -/
def ImageWindow.fits (w : ImageWindow) : Prop :=
  w.base < 4294967296 ∧ w.len < 65536 ∧ w.grants.length ≤ 4 ∧ ∀ g ∈ w.grants, g.fits

theorem readWindows_cons {w : ImageWindow} (h : w.fits) (k i : Nat) (tail : List Byte) :
    readWindows (k + 1) i (w.encode ++ tail) = (readWindows k (i + 1) tail).map fun x => (w :: x.1, x.2) := by
  obtain ⟨hbase, hlen, hcount, hgrants⟩ := h
  have hc : (BitVec.ofNat 8 w.grants.length).toNat = w.grants.length := toNat_byte_of_lt (by omega)
  have hb : leValue (leBytes 4 w.base) = w.base := leValue_leBytes_of_lt hbase
  have hl : leValue (leBytes 2 w.len) = w.len := leValue_leBytes_of_lt hlen
  simp only [leBytes] at hb hl
  simp only [ImageWindow.encode, leBytes, List.cons_append, List.nil_append, readWindows, hc, hb, hl,
    readGrants_encode hgrants, if_neg (Nat.not_lt.2 hcount)]
  cases readWindows k (i + 1) tail <;> rfl

/-- Windows read back as written, and what follows them is read on. -/
theorem readWindows_encode {ws : List ImageWindow} (h : ∀ w ∈ ws, w.fits) (k i : Nat) (tail : List Byte) :
    readWindows (ws.length + k) i (ws.flatMap ImageWindow.encode ++ tail) =
      (readWindows k (i + ws.length) tail).map fun x => (ws ++ x.1, x.2) := by
  induction ws generalizing i with
  | nil =>
    rw [List.length_nil, Nat.zero_add, Nat.add_zero, List.flatMap_nil, List.nil_append]
    cases readWindows k i tail <;> rfl
  | cons w ws ih =>
    rw [List.flatMap_cons, List.append_assoc, List.length_cons, Nat.add_right_comm,
      readWindows_cons (h w List.mem_cons_self), ih fun x hx => h x (List.mem_cons_of_mem _ hx), Nat.add_assoc,
      Nat.add_comm 1]
    cases readWindows k (i + (ws.length + 1)) tail <;> rfl

/-- A window's count of grants stands in its seventh byte: fewer bytes are no window (R167 point 1). -/
theorem readWindows_short {bytes : List Byte} (h : bytes.length < 7) (k i : Nat) :
    readWindows (k + 1) i bytes = .error (.of .noDevice) := by
  unfold readWindows
  split
  · contradiction
  · simp only [List.length_cons] at h
    omega
  · rfl

section Window

variable (k i : Nat) (b0 b1 b2 b3 l0 l1 : Byte) {count : Byte} {rest : List Byte}

/-- A window with a count of grants over 4 is BAD_ENTRY with its index (R167 point 4). -/
theorem readWindows_overfull (h : 4 < count.toNat) :
    readWindows (k + 1) i (b0 :: b1 :: b2 :: b3 :: l0 :: l1 :: count :: rest) =
      .error (.badEntry (.window (Fin.ofNat 8 i))) := if_pos h

/-- A window whose grants are missing is an EEPROM that does not acknowledge them (R167 point 1). -/
theorem readWindows_cut (h : count.toNat ≤ 4) (hrest : rest.length < 7 * count.toNat) :
    readWindows (k + 1) i (b0 :: b1 :: b2 :: b3 :: l0 :: l1 :: count :: rest) = .error (.of .noDevice) := by
  rw [readWindows, if_neg (Nat.not_lt.2 h), readGrants_short hrest]

end Window

/-! ### The image -/

theorem BootImage.fits.windows_fit {m : BootImage} (h : m.fits) : ∀ w ∈ m.windows, w.fits := h.2.2.2.2.2.2

section Image

variable {m : BootImage} {count : Byte} {rest : List Byte}

/-- Behind a right signature and version the body is read. -/
theorem readImage_header (m : BootImage) (count : Byte) (rest : List Byte) :
    readImage (m.header count ++ rest) = readBody (m.header count ++ rest)
      (.ofNat 8 m.holdLimit :: .ofNat 8 (m.holdLimit / 256) ::
        .ofNat 8 m.revokeLimit :: .ofNat 8 (m.revokeLimit / 256) ::
        .ofNat 8 m.copyPacing :: .ofNat 8 (m.copyPacing / 256) ::
        .ofNat 8 m.policy :: .ofNat 8 m.mask :: count :: rest) :=
  rfl

/-- A failure among the windows is the failure of the reading. -/
theorem readImage_of_windows_error {b : BootStatus} (hcount : count.toNat ≤ 8)
    (h : readWindows count.toNat 0 rest = .error b) : readImage (m.header count ++ rest) = .error b := by
  simp only [readImage_header, readBody, if_neg (Nat.not_lt.2 hcount), h]

/-- Behind the windows a missing checksum byte is an EEPROM that does not acknowledge it (R167 point 1). -/
theorem readImage_of_unsummed {ws : List ImageWindow} {tail : List Byte} (hcount : count.toNat ≤ 8)
    (h : readWindows count.toNat 0 rest = .ok (ws, tail)) (htail : tail.length < 2) :
    readImage (m.header count ++ rest) = .error (.of .noDevice) := by
  simp only [readImage_header, readBody, if_neg (Nat.not_lt.2 hcount), h]
  split
  · contradiction
  · rename_i hx
    obtain ⟨-, rfl⟩ := Prod.mk.inj (Except.ok.inj hx)
    simp only [List.length_cons] at htail
    omega
  · rfl

/-- The image read when the checksum that follows its body is right (R167 point 5). -/
theorem readImage_body (h : m.fits) (c0 c1 : Byte) (tail : List Byte) :
    readImage (m.body ++ [c0, c1] ++ tail) =
      if checksum m.body = leValue [c0, c1] then .ok m else .error (.of .badChecksum) := by
  have hwindows := h.windows_fit
  obtain ⟨hhold, hrevoke, hpacing, hpolicy, hmask, hcount, -⟩ := h
  have hc : (BitVec.ofNat 8 m.windows.length).toNat = m.windows.length := toNat_byte_of_lt (by omega)
  have hread : readWindows (BitVec.ofNat 8 m.windows.length).toNat 0
      (m.windows.flatMap ImageWindow.encode ++ c0 :: c1 :: tail) = .ok (m.windows, c0 :: c1 :: tail) := by
    rw [hc]
    exact (readWindows_encode hwindows 0 0 (c0 :: c1 :: tail)).trans (by simp [readWindows, Except.map])
  have hall : m.body ++ [c0, c1] ++ tail = m.header (BitVec.ofNat 8 m.windows.length) ++
      (m.windows.flatMap ImageWindow.encode ++ c0 :: c1 :: tail) := by
    simp [BootImage.body]
  have htake : (m.body ++ [c0, c1] ++ tail).take ((m.body ++ [c0, c1] ++ tail).length - (tail.length + 2)) =
      m.body := by
    rw [List.append_assoc]
    exact List.take_left' (by simp)
  have hh : leValue (leBytes 2 m.holdLimit) = m.holdLimit := leValue_leBytes_of_lt hhold
  have hr : leValue (leBytes 2 m.revokeLimit) = m.revokeLimit := leValue_leBytes_of_lt hrevoke
  have hp : leValue (leBytes 2 m.copyPacing) = m.copyPacing := leValue_leBytes_of_lt hpacing
  rw [hall, readImage_header, ← hall]
  generalize m.body ++ [c0, c1] ++ tail = all at htake
  simp only [leBytes] at hh hr hp
  simp only [readBody, if_neg (show ¬8 < (BitVec.ofNat 8 m.windows.length).toNat by omega), hread, htake, hh, hr, hp,
    toNat_byte_of_lt hpolicy, toNat_byte_of_lt hmask]

end Image

/-- The image with its checksum reads back as written, whatever follows it. -/
theorem readImage_encode {m : BootImage} (h : m.fits) (tail : List Byte) : readImage (m.encode ++ tail) = .ok m := by
  have hsum : leValue (leBytes 2 (checksum m.body)) = checksum m.body :=
    leValue_leBytes_of_lt (Nat.mod_lt _ (by decide))
  exact (readImage_body h _ _ tail).trans (if_pos hsum.symm)

/-! ### The boot load -/

/-- An image that cannot be read ends an enabled load (R167). -/
theorem bootLoad_of_readImage_error {eeprom : List Byte} {b : BootStatus} (h : readImage eeprom = .error b)
    (granules : Nat) : bootLoad true granules eeprom = .error b := by
  simp only [bootLoad, if_true, h]

/-- Fewer than nine bytes behind the version hold no count of windows (R167 point 1). -/
theorem readBody_short {bytes : List Byte} (h : bytes.length < 9) (all : List Byte) :
    readBody all bytes = .error (.of .noDevice) := by
  unfold readBody
  split
  · simp only [List.length_cons] at h
    omega
  · rfl

/-- A window count over 8 is BAD_ENTRY of the settings (R167 point 4). -/
theorem readBody_overfull {count : Byte} (h : 8 < count.toNat) (h0 h1 r0 r1 p0 p1 policy mask : Byte)
    (all tail : List Byte) :
    readBody all (h0 :: h1 :: r0 :: r1 :: p0 :: p1 :: policy :: mask :: count :: tail) =
      .error (.badEntry .settings) := if_pos h

theorem readImage_unsigned {eeprom : List Byte} (h : eeprom.length < 2) :
    readImage eeprom = .error (.of .noDevice) := by
  match eeprom with
  | [] | [_] => rfl
  | _ :: _ :: _ => simp at h

theorem readImage_badSignature {s0 s1 : Byte} (h : s0 ≠ 0x5A ∨ s1 ≠ 0xA5) (rest : List Byte) :
    readImage (s0 :: s1 :: rest) = .error (.of .badSignature) := if_pos h

theorem readImage_badVersion {version : Byte} (h : version ≠ 0x01) (body : List Byte) :
    readImage (0x5A :: 0xA5 :: version :: body) = .error (.of .badVersion) := if_pos h

theorem readImage_versioned (body : List Byte) :
    readImage (0x5A :: 0xA5 :: 0x01 :: body) = readBody (0x5A :: 0xA5 :: 0x01 :: body) body := rfl

/-! ### Where the reading ends -/

/-- The points of the reading up to the count of windows, each with its code (R167 points 1 to 4). -/
theorem bootLoad_points (granules : Nat) (eeprom : List Byte) :
    bootLoad false granules eeprom = .error ⟨.notEnabled, none⟩ ∧
    (eeprom.length < 2 → bootLoad true granules eeprom = .error ⟨.noDevice, none⟩) ∧
    ∀ s0 s1 rest, eeprom = s0 :: s1 :: rest →
      (s0 ≠ 0x5A ∨ s1 ≠ 0xA5 → bootLoad true granules eeprom = .error ⟨.badSignature, none⟩) ∧
      (s0 = 0x5A → s1 = 0xA5 →
        (rest = [] → bootLoad true granules eeprom = .error ⟨.noDevice, none⟩) ∧
        ∀ version body, rest = version :: body →
          (version ≠ 0x01 → bootLoad true granules eeprom = .error ⟨.badVersion, none⟩) ∧
          (version = 0x01 → body.length < 9 → bootLoad true granules eeprom = .error ⟨.noDevice, none⟩) ∧
          ∀ h0 h1 r0 r1 p0 p1 policy mask count tail, version = 0x01 →
            body = h0 :: h1 :: r0 :: r1 :: p0 :: p1 :: policy :: mask :: count :: tail → 8 < count.toNat →
            bootLoad true granules eeprom = .error ⟨.badEntry, some .settings⟩) := by
  refine ⟨rfl, fun h => bootLoad_of_readImage_error (readImage_unsigned h) _, ?_⟩
  rintro s0 s1 rest rfl
  refine ⟨fun h => bootLoad_of_readImage_error (readImage_badSignature h rest) _, ?_⟩
  rintro rfl rfl
  refine ⟨?_, ?_⟩
  · rintro rfl
    rfl
  · rintro version body rfl
    refine ⟨fun h => bootLoad_of_readImage_error (readImage_badVersion h body) _, ?_, ?_⟩
    · rintro rfl h
      exact bootLoad_of_readImage_error ((readImage_versioned _).trans (readBody_short h _)) _
    · rintro h0 h1 r0 r1 p0 p1 policy mask count tail rfl rfl h
      exact bootLoad_of_readImage_error ((readImage_versioned _).trans (readBody_overfull h ..)) _

section Cut

variable {m : BootImage} {count : Byte} (hm : m.fits) (hcount : count.toNat ≤ 8)
include hm hcount

/-- Behind the windows that are there, a failure at the next window is the failure of the reading. -/
theorem readImage_of_next_error {k : Nat} (hk : m.windows.length + k = count.toNat) {tail : List Byte} {b : BootStatus}
    (h : readWindows k m.windows.length tail = .error b) :
    readImage (m.header count ++ m.windows.flatMap ImageWindow.encode ++ tail) = .error b := by
  rw [List.append_assoc]
  refine readImage_of_windows_error hcount ?_
  rw [← hk, readWindows_encode hm.windows_fit, Nat.zero_add, h]
  rfl

/-- Behind all the windows, missing checksum bytes are an EEPROM that does not acknowledge them (R167 point 1). -/
theorem readImage_unsummed (hall : m.windows.length = count.toNat) {tail : List Byte} (htail : tail.length < 2) :
    readImage (m.header count ++ m.windows.flatMap ImageWindow.encode ++ tail) = .error (.of .noDevice) := by
  rw [List.append_assoc]
  refine readImage_of_unsummed (ws := m.windows) (tail := tail) hcount ?_ htail
  rw [← hall, ← Nat.add_zero m.windows.length, readWindows_encode hm.windows_fit]
  simp [readWindows, Except.map]

end Cut

/-- Settles O51: round trip through the windows and grants, then each point at which the reading can end. -/
theorem bootImageReadsBack : Obligations.BootImageReadsBack := by
  refine ⟨fun m tail hm => ⟨readImage_encode hm tail, fun c0 c1 hsum => ?_⟩, bootLoad_points, ?_⟩
  · exact (readImage_body hm c0 c1 tail).trans (if_neg (Ne.symm hsum))
  · rintro granules m count tail eeprom hm hcount - rfl
    refine ⟨fun hall htail => bootLoad_of_readImage_error (readImage_unsummed hm hcount hall htail) _, fun hmore => ?_⟩
    obtain ⟨k, hk⟩ : ∃ k, m.windows.length + (k + 1) = count.toNat := ⟨count.toNat - m.windows.length - 1, by omega⟩
    have hends : ∀ {b : BootStatus}, readWindows (k + 1) m.windows.length tail = .error b → bootLoad true granules
        (m.header count ++ m.windows.flatMap ImageWindow.encode ++ tail) = .error b :=
      fun h => bootLoad_of_readImage_error (readImage_of_next_error hm hcount hk h) _
    refine ⟨fun hshort => hends (readWindows_short hshort ..), ?_⟩
    rintro b0 b1 b2 b3 l0 l1 grants rest rfl
    refine ⟨fun hfull i hi => ?_, fun hgrants hrest => hends (readWindows_cut _ _ b0 b1 b2 b3 l0 l1 hgrants hrest)⟩
    obtain rfl : Fin.ofNat 8 m.windows.length = i := Fin.ext (hi ▸ Nat.mod_eq_of_lt i.isLt)
    exact hends (readWindows_overfull _ _ b0 b1 b2 b3 l0 l1 hfull)

end Sys2Proof.Machine
end

section
/-! SUPPORT. The validation of a read image: each window is judged behind the windows that stand before it (R168). -/

namespace Sys2Proof.Machine

/-! ### The ranges that grants take -/

/-- The node range that a grant of a window of so many bytes takes. -/
def ImageGrant.range (bytes : Nat) (g : ImageGrant) : TakenRange := ⟨g.node, g.base, bytes⟩

/-- The ranges that the grants of image windows take, the last one first. -/
def takenBy (before : List ImageWindow) : List TakenRange :=
  (before.flatMap fun x => x.grants.map (ImageGrant.range (x.len * granuleBytes))).reverse

/-- The extents of image windows, the last one first. -/
def extentsOf (before : List ImageWindow) : List Extent := (before.map ImageWindow.extent).reverse

theorem extentsOf_append (before : List ImageWindow) (w : ImageWindow) :
    extentsOf (before ++ [w]) = w.extent :: extentsOf before := by
  simp [extentsOf]

theorem takenBy_append (before : List ImageWindow) (w : ImageWindow) :
    takenBy (before ++ [w]) = (w.grants.map (ImageGrant.range (w.len * granuleBytes))).reverse ++ takenBy before := by
  simp [takenBy]

theorem mem_takenBy {before : List ImageWindow} {r : TakenRange} :
    r ∈ takenBy before ↔ ∃ x ∈ before, ∃ h ∈ x.grants, h.range (x.len * granuleBytes) = r := by
  simp [takenBy]

/-! ### Orders 5 to 7 -/

/-- A grant keeps orders 5 to 7 of R168 apart from the one grant for each node: its node, rights and range are allowed,
and the range stands clear of the ranges its node has taken. -/
structure ImageGrant.Clear (bytes : Nat) (earlier : List TakenRange) (g : ImageGrant) : Prop where
  fields : g.node ≤ 3 ∧ (g.rights = 1 ∨ g.rights = 2)
  range : g.base % granuleBytes = 0 ∧ g.base + bytes ≤ nodeSpace
  clear : ∀ r ∈ earlier, r.node = g.node → apart r.base r.bytes g.base bytes

theorem grantValid_iff_clear {bytes : Nat} (hbytes : 0 < bytes) {own : List Nat} {earlier : List TakenRange}
    {g : ImageGrant} : grantValid bytes own earlier g = true ↔ g.node ∉ own ∧ g.Clear bytes earlier := by
  have hclear : (∀ r ∈ earlier, ¬((r.node = g.node ∧ r.base < g.base + bytes) ∧ g.base < r.base + r.bytes)) ↔
      ∀ r ∈ earlier, r.node = g.node → apart r.base r.bytes g.base bytes :=
    forall₂_congr fun r _ => by omega
  simp only [grantValid, Bool.and_eq_true, Bool.or_eq_true, decide_eq_true_eq, Bool.not_eq_true',
    List.contains_eq_mem, decide_eq_false_iff_not, beq_iff_eq, List.any_eq_false, hclear]
  constructor
  · rintro ⟨⟨⟨⟨⟨⟨hnode, hown⟩, hrights⟩, haligned⟩, -⟩, hbelow⟩, hapart⟩
    exact ⟨hown, ⟨by omega, hrights⟩, ⟨haligned, hbelow⟩, hapart⟩
  · rintro ⟨hown, ⟨hnode, hrights⟩, ⟨haligned, hbelow⟩, hapart⟩
    exact ⟨⟨⟨⟨⟨⟨by omega, hown⟩, hrights⟩, haligned⟩, by omega⟩, hbelow⟩, hapart⟩

/-- A range that another node takes is not in the way. -/
theorem ImageGrant.clear_cons_of_ne {bytes : Nat} {earlier : List TakenRange} {g h : ImageGrant}
    (hne : g.node ≠ h.node) :
    h.Clear bytes (g.range bytes :: earlier) ↔ h.Clear bytes earlier := by
  constructor
  · rintro ⟨hfields, hrange, hclear⟩
    exact ⟨hfields, hrange, fun r hr => hclear r (List.mem_cons_of_mem _ hr)⟩
  · rintro ⟨hfields, hrange, hclear⟩
    refine ⟨hfields, hrange, fun r hr hn => ?_⟩
    rcases List.mem_cons.1 hr with rfl | hr
    · exact absurd hn hne
    · exact hclear r hr hn

/-- The grants of a window pass when each is clear of the ranges before the window and no two are for one node. -/
theorem grantsValid_iff {bytes : Nat} (hbytes : 0 < bytes) {own : List Nat} {earlier taken : List TakenRange}
    {gs : List ImageGrant} :
    grantsValid bytes own earlier gs = some taken ↔
      (∀ g ∈ gs, g.node ∉ own ∧ g.Clear bytes earlier) ∧ gs.Pairwise (fun g h => g.node ≠ h.node) ∧
        taken = (gs.map (ImageGrant.range bytes)).reverse ++ earlier := by
  induction gs generalizing own earlier with
  | nil => simp [grantsValid, eq_comm]
  | cons g gs ih =>
    have hrest : (∀ h ∈ gs, h.node ∉ g.node :: own ∧ h.Clear bytes (g.range bytes :: earlier)) ↔
        (∀ h ∈ gs, g.node ≠ h.node) ∧ ∀ h ∈ gs, h.node ∉ own ∧ h.Clear bytes earlier := by
      rw [← forall₂_and]
      refine forall₂_congr fun h _ => ?_
      by_cases hne : g.node = h.node
      · simp [hne]
      · simp [ImageGrant.clear_cons_of_ne hne, hne, Ne.symm hne]
    by_cases hg : grantValid bytes own earlier g = true
    · rw [grantsValid, if_pos hg, show (⟨g.node, g.base, bytes⟩ : TakenRange) = g.range bytes from rfl, ih, hrest,
        List.forall_mem_cons, List.pairwise_cons, List.map_cons, List.reverse_cons, List.append_assoc,
        List.singleton_append]
      have hclear := (grantValid_iff_clear hbytes).1 hg
      tauto
    · rw [grantsValid, if_neg hg, List.forall_mem_cons]
      refine iff_of_false (by simp) fun hall => hg ((grantValid_iff_clear hbytes).2 hall.1.1)

/-! ### One window -/

theorem Extent.overlaps_eq_false_iff {e f : Extent} : e.overlaps f = false ↔ apart e.base e.len f.base f.len := by
  rw [← Bool.not_eq_true]
  simp only [Extent.overlaps, Bool.and_eq_true, decide_eq_true_eq]
  omega

theorem windowValid_iff {granules : Nat} {before : List ImageWindow} {w : ImageWindow} :
    windowValid granules (extentsOf before) w = true ↔
      (1 ≤ w.len ∧ w.len ≤ 4096) ∧ w.base + w.len ≤ granules ∧ ∀ x ∈ before, apart x.base x.len w.base w.len := by
  simp only [windowValid, Bool.and_eq_true, decide_eq_true_eq, Bool.not_eq_true', List.any_eq_false, Bool.not_eq_true,
    Extent.overlaps_eq_false_iff, extentsOf, List.mem_reverse, List.forall_mem_map, and_assoc]
  rfl

theorem grantsValid_takenBy_iff {before : List ImageWindow} {w : ImageWindow} {taken : List TakenRange}
    (hlen : 1 ≤ w.len) :
    grantsValid (w.len * granuleBytes) [] (takenBy before) w.grants = some taken ↔
      ((∀ g ∈ w.grants, g.Clear (w.len * granuleBytes) (takenBy before)) ∧
        w.grants.Pairwise fun g h => g.node ≠ h.node) ∧ taken = takenBy (before ++ [w]) := by
  rw [grantsValid_iff (Nat.mul_pos hlen (by decide)), takenBy_append, and_assoc]
  simp only [List.not_mem_nil, not_false_eq_true, true_and]

/-- Orders 2 to 7 as the validation judges them. -/
theorem passes_iff {granules : Nat} {before : List ImageWindow} {w : ImageWindow} :
    w.passes granules before ↔ windowValid granules (extentsOf before) w = true ∧
      grantsValid (w.len * granuleBytes) [] (takenBy before) w.grants = some (takenBy (before ++ [w])) := by
  rw [windowValid_iff]
  constructor
  · rintro ⟨hlen, hroom, hapart, hfields, honce, hrange, hclear⟩
    refine ⟨⟨hlen, hroom, hapart⟩, (grantsValid_takenBy_iff hlen.1).2 ⟨⟨fun g hg => ?_, honce⟩, rfl⟩⟩
    refine ⟨hfields g hg, hrange g hg, fun r hr hn => ?_⟩
    obtain ⟨x, hx, h, hh, rfl⟩ := mem_takenBy.1 hr
    exact hclear g hg x hx h hh hn
  · rintro ⟨⟨hlen, hroom, hapart⟩, hgrants⟩
    obtain ⟨⟨hclear, honce⟩, -⟩ := (grantsValid_takenBy_iff hlen.1).1 hgrants
    exact ⟨hlen, hroom, hapart, fun g hg => (hclear g hg).fields, honce, fun g hg => (hclear g hg).range,
      fun g hg x hx h hh hn => (hclear g hg).clear _ (mem_takenBy.2 ⟨x, hx, h, hh, rfl⟩) hn⟩

/-! ### The windows in order -/

/-- The validation of the windows that follow `before` (R168 orders 2 to 7). -/
def badAfter (granules : Nat) (before ws : List ImageWindow) : Option BootEntry :=
  badWindow granules before.length (extentsOf before) (takenBy before) ws

section Windows

variable {granules : Nat} {before : List ImageWindow} {w : ImageWindow} {rest : List ImageWindow}

/-- A window that passes leaves the judgement to those behind it. -/
theorem badAfter_of_passes (h : w.passes granules before) :
    badAfter granules before (w :: rest) = badAfter granules (before ++ [w]) rest := by
  obtain ⟨hw, hg⟩ := passes_iff.1 h
  simp only [badAfter, badWindow, hw, hg, if_true, extentsOf_append, List.length_append, List.length_singleton]

/-- A window that does not pass is the entry that breaks a rule. -/
theorem badAfter_of_not_passes (h : ¬w.passes granules before) :
    badAfter granules before (w :: rest) = some (.window (Fin.ofNat 8 before.length)) := by
  rw [passes_iff] at h
  rw [badAfter, badWindow]
  split
  · rename_i hw
    split
    · rename_i taken ht
      have hlen := (windowValid_iff.1 hw).1.1
      obtain ⟨hgrants, rfl⟩ := (grantsValid_takenBy_iff hlen).1 ht
      exact absurd ⟨hw, ht⟩ h
    · rfl
  · rfl

end Windows

/-- Windows that pass, each behind those before it, leave the judgement to the windows that follow them. -/
theorem badAfter_append {granules : Nat} {before : List ImageWindow} (below rest : List ImageWindow)
    (h : ∀ above y after, below = above ++ y :: after → y.passes granules (before ++ above)) :
    badAfter granules before (below ++ rest) = badAfter granules (before ++ below) rest := by
  induction below generalizing before with
  | nil => rw [List.nil_append, List.append_nil]
  | cons x below ih =>
    have hx : x.passes granules before := by simpa using h [] x below rfl
    rw [List.cons_append, badAfter_of_passes hx, ih, List.append_assoc, List.singleton_append]
    rintro above y after rfl
    simpa using h (x :: above) y after rfl

/-- When no window breaks a rule, each passes behind those before it. -/
theorem passes_of_badAfter_none {granules : Nat} {before ws : List ImageWindow}
    (h : badAfter granules before ws = none) :
    ∀ x ∈ ws, ∃ earlier, x.passes granules earlier := by
  induction ws generalizing before with
  | nil => simp
  | cons w rest ih =>
    by_cases hw : w.passes granules before
    · rw [badAfter_of_passes hw] at h
      exact List.forall_mem_cons.2 ⟨⟨before, hw⟩, ih h⟩
    · rw [badAfter_of_not_passes hw] at h
      contradiction

/-! ### The image -/

theorem settingsValid_iff {m : BootImage} :
    settingsValid m = true ↔ m.copyPacing ≤ 255 ∧ m.policy ≤ 1 ∧ m.mask ≤ 15 := by
  simp only [settingsValid, Bool.and_eq_true, decide_eq_true_eq, and_assoc]
  omega

theorem badEntry_of_settings {m : BootImage} (h : settingsValid m = true) (granules : Nat) :
    badEntry granules m = badAfter granules [] m.windows := if_pos h

/-- An image that is read is loaded as its validation says (R168). -/
theorem bootLoad_of_bad {granules : Nat} {eeprom : List Byte} {m : BootImage} {e : BootEntry}
    (hread : readImage eeprom = .ok m) (hbad : badEntry granules m = some e) :
    bootLoad true granules eeprom = .error (.badEntry e) := by
  simp only [bootLoad, if_true, hread, hbad]

theorem bootLoad_of_good {granules : Nat} {eeprom : List Byte} {m : BootImage}
    (hread : readImage eeprom = .ok m) (hgood : badEntry granules m = none) :
    bootLoad true granules eeprom = .ok m := by
  simp only [bootLoad, if_true, hread, hgood]

/-- Settles O52: the windows before the first bad one all pass, so the judgement comes to it. -/
theorem bootImageIsValidated : Obligations.BootImageIsValidated := by
  rintro granules m tail eeprom hm rfl
  have hread := readImage_encode hm tail
  refine ⟨fun hbad => ?_, fun hpacing hpolicy hmask => ?_⟩
  · have hsettings : ¬settingsValid m = true := by
      rw [settingsValid_iff]
      omega
    exact bootLoad_of_bad hread (if_neg hsettings)
  · have hsettings := badEntry_of_settings (settingsValid_iff.2 ⟨hpacing, hpolicy, hmask⟩) granules
    refine ⟨fun below x above i hw hi hbelow hx => bootLoad_of_bad hread ?_, fun hall => bootLoad_of_good hread ?_⟩
    · obtain rfl : Fin.ofNat 8 below.length = i := Fin.ext (hi ▸ Nat.mod_eq_of_lt i.isLt)
      rw [hsettings, hw, badAfter_append below _ hbelow]
      exact badAfter_of_not_passes hx
    · have hend := badAfter_append m.windows [] (before := []) hall
      rw [List.append_nil] at hend
      rw [hsettings, hend]
      rfl

end Sys2Proof.Machine
end

section
/-! SUPPORT. The installation of the boot image: what it leaves as it was, the ports it decides, and the windows and
grants it makes (R169, R64, R37). -/

namespace Sys2Proof.Machine

/-! ### The ports (R64) -/

/-- A port as the installation decides it, when the mask admits its node or not. -/
def Port.decided (p : Port) (admits : Bool) : Port :=
  if p.standing = .waiting then
    if p.link = .fenced ∧ admits = true then
      { p with standing := .closed, link := .admitted, outbound := p.outbound ++ [.admitNotice] }
    else { p with standing := .closed }
  else p

theorem decidePort_eq_setPort (s : State) (n : NodeId) :
    s.decidePort n = s.setPort n ((s.port n).decided (s.inMask n)) := by
  unfold State.decidePort Port.decided
  split
  · have hlink : (s.setPort n { s.port n with standing := .closed }).link n = (s.port n).link := by
      rw [link_setPort, if_pos rfl]
    have hmask : (s.setPort n { s.port n with standing := .closed }).inMask n = s.inMask n := rfl
    simp only [hlink, hmask]
    split
    · rw [State.send, if_neg (by rw [link_setLink, if_pos rfl]; decide), State.setLink, setPort_setPort,
        setPort_setPort, port_setPort, port_setPort, if_pos rfl, if_pos rfl]
    · rfl
  · exact (setPort_self s n).symm

theorem decidePort_eq (s : State) (n : NodeId) : s.decidePort n = { s with ports := (s.decidePort n).ports } := by
  rw [decidePort_eq_setPort]
  rfl

theorem port_decidePort (s : State) (n m : NodeId) :
    (s.decidePort n).port m = if n = m then (s.port n).decided (s.inMask n) else s.port m := by
  rw [decidePort_eq_setPort, port_setPort]

theorem inMask_decidePort (s : State) (n m : NodeId) : (s.decidePort n).inMask m = s.inMask m := by
  rw [decidePort_eq_setPort]
  rfl

theorem foldl_decidePort_eq (l : List NodeId) (s : State) :
    l.foldl State.decidePort s = { s with ports := (l.foldl State.decidePort s).ports } :=
  List.foldlRecOn l State.decidePort (motive := fun t => t = { s with ports := t.ports }) rfl fun t ht n _ => by
    rw [decidePort_eq t n, ht]

theorem port_foldl_decidePort {l : List NodeId} (hl : l.Nodup) (s : State) (m : NodeId) :
    (l.foldl State.decidePort s).port m = if m ∈ l then (s.port m).decided (s.inMask m) else s.port m := by
  induction l generalizing s with
  | nil => simp
  | cons n l ih =>
    obtain ⟨hn, hl⟩ := List.nodup_cons.1 hl
    rw [List.foldl_cons, ih hl, inMask_decidePort, port_decidePort]
    by_cases hm : n = m
    · subst hm
      simp [hn]
    · simp [hm, Ne.symm hm]

/-! ### What the installation leaves as it was -/

/-- The end of the boot load changes the ports, the attention set and the boot record alone (R169 steps 4 to 6). -/
theorem endBoot_eq (s : State) (status : BootStatus) (mask : BitVec 4) (f : Flag) :
    s.endBoot status mask f =
      { s with
        ports := (s.endBoot status mask f).ports
        attention := (s.endBoot status mask f).attention
        booting := false
        bootStatus := status
        maskInForce := mask } := by
  have hports := foldl_decidePort_eq allNodes { s with maskInForce := mask }
  unfold State.endBoot
  generalize allNodes.foldl State.decidePort { s with maskInForce := mask } = t at hports ⊢
  rw [hports]
  rfl

/-- Every WAITING port is decided under the mask that comes into force, and no other changes (R64). -/
theorem port_endBoot (s : State) (status : BootStatus) (mask : BitVec 4) (f : Flag) (n : NodeId) :
    (s.endBoot status mask f).port n = (s.port n).decided (mask.getLsbD n.val) := by
  have hports := port_foldl_decidePort (l := allNodes) (by decide) { s with maskInForce := mask } n
  rw [if_pos (mem_allNodes n)] at hports
  unfold State.endBoot
  generalize allNodes.foldl State.decidePort { s with maskInForce := mask } = t at hports ⊢
  exact hports

/-- The flag of the boot load is raised (R169 step 6). -/
theorem isPending_endBoot (s : State) (status : BootStatus) (mask : BitVec 4) (f : Flag) :
    (s.endBoot status mask f).isPending f = true := by
  unfold State.endBoot
  generalize allNodes.foldl State.decidePort { s with maskInForce := mask } = t
  exact isPending_raise t f

theorem addGrant_eq (s : State) (w : WindowId) (n : NodeId) (base : Nat) (r : Rights) :
    s.addGrant w n base r =
      { s with windows := (s.addGrant w n base r).windows, maps := (s.addGrant w n base r).maps } := by
  unfold State.addGrant State.updateLive
  dsimp only
  split <;> rfl

theorem installGrants_eq (w : WindowId) (gs : List ImageGrant) (s : State) :
    gs.foldl (State.installGrant w) s =
      { s with
        windows := (gs.foldl (State.installGrant w) s).windows
        maps := (gs.foldl (State.installGrant w) s).maps } :=
  List.foldlRecOn gs (State.installGrant w) (motive := fun t => t = { s with windows := t.windows, maps := t.maps }) rfl
    fun t ht g _ => by
      rw [State.installGrant, addGrant_eq, ht]

theorem installWindow_eq (s : State) (i : Nat) (x : ImageWindow) :
    s.installWindow i x =
      { s with
        windows := (s.installWindow i x).windows
        maps := (s.installWindow i x).maps
        freeList := (s.installWindow i x).freeList } := by
  unfold State.installWindow
  dsimp only
  rw [installGrants_eq]
  rfl

theorem installWindows_eq (s : State) (i : Nat) (ws : List ImageWindow) :
    s.installWindows i ws =
      { s with
        windows := (s.installWindows i ws).windows
        maps := (s.installWindows i ws).maps
        freeList := (s.installWindows i ws).freeList } := by
  induction ws generalizing s i with
  | nil => rfl
  | cons x rest ih =>
    rw [State.installWindows, ih, installWindow_eq]

/-- The image's windows and grants change the directory alone, its settings the settings (R169 steps 1 to 3). -/
theorem installImage_eq (s : State) (m : BootImage) :
    s.installImage m =
      { s with
        settings := s.settings.ofImage m
        windows := (s.installImage m).windows
        maps := (s.installImage m).maps
        freeList := (s.installImage m).freeList } := by
  unfold State.installImage
  rw [installWindows_eq]

/-! ### The grants of one window (R169 step 3, R37) -/

/-- The grant record that an image grant is installed as. -/
def ImageGrant.record (g : ImageGrant) : GrantRecord := .fresh (Fin.ofNat 4 g.node) g.base (imageRights g.rights)

/-- The grants of an image window, each in its place in the grant list. -/
def placeGrants (gs : List ImageGrant) (l : List GrantRecord) : List GrantRecord :=
  gs.foldl (fun l g => insertGrant g.record l) l

theorem placeGrants_perm (gs : List ImageGrant) (l : List GrantRecord) :
    (placeGrants gs l).Perm (gs.map ImageGrant.record ++ l) := by
  induction gs generalizing l with
  | nil => exact List.Perm.refl _
  | cons g gs ih =>
    exact (ih _).trans (((insertGrant_perm g.record l).append_left _).trans List.perm_middle)

theorem placeGrants_rises {gs : List ImageGrant} {l : List GrantRecord} (hl : l.Pairwise fun g h => g.node < h.node)
    (hnew : ∀ g ∈ gs, ∀ x ∈ l, x.node ≠ g.record.node) (honce : gs.Pairwise fun g h => g.record.node ≠ h.record.node) :
    (placeGrants gs l).Pairwise fun g h => g.node < h.node := by
  induction gs generalizing l with
  | nil => exact hl
  | cons g gs ih =>
    obtain ⟨hg, honce⟩ := List.pairwise_cons.1 honce
    refine ih (insertGrant_rises hl (hnew g List.mem_cons_self)) (fun h hh x hx => ?_) honce
    rcases List.mem_cons.1 ((insertGrant_perm ..).mem_iff.1 hx) with rfl | hx
    · exact hg h hh
    · exact hnew h (List.mem_cons_of_mem _ hh) x hx

/-- A window record with an image window installed in it: ACTIVE on the image's extent, generation kept. -/
def WindowRecord.installed (r : WindowRecord) (x : ImageWindow) : WindowRecord :=
  { r with life := some { Live.fresh x.extent with grants := placeGrants x.grants [] } }

theorem window_installGrants (w y : WindowId) (gs : List ImageGrant) (s : State) :
    (gs.foldl (State.installGrant w) s).window y =
      if w = y then
        { s.window y with life := (s.window y).life.map fun v => { v with grants := placeGrants gs v.grants } }
      else s.window y := by
  induction gs generalizing s with
  | nil =>
    split
    · simp [placeGrants]
    · rfl
  | cons g gs ih =>
    rw [List.foldl_cons, ih, State.installGrant, State.addGrant, window_updateLive]
    split
    · rw [Option.map_map]
      rfl
    · rfl

theorem map_installGrant (w : WindowId) (s : State) (g : ImageGrant) (n : NodeId) (z : WindowId) :
    z ∈ (State.installGrant w s g).map n ↔ z ∈ s.map n ∨ g.record.node = n ∧ z = w := by
  change z ∈ (s.addGrant w g.record.node g.base (imageRights g.rights)).map n ↔ _
  rw [map_addGrant]
  by_cases hn : g.record.node = n
  · subst hn
    rw [if_pos rfl, (insertRef_perm ..).mem_iff, List.mem_cons]
    tauto
  · simp [hn]

/-- A window stands in the map of each node its grants name; no map loses a window (R37). -/
theorem mem_map_installGrants (w : WindowId) (gs : List ImageGrant) (s : State) (n : NodeId) (z : WindowId) :
    z ∈ (gs.foldl (State.installGrant w) s).map n ↔ z ∈ s.map n ∨ (∃ g ∈ gs, g.record.node = n) ∧ z = w := by
  induction gs generalizing s with
  | nil => simp
  | cons g gs ih =>
    rw [List.foldl_cons, ih, map_installGrant, List.exists_mem_cons_iff]
    tauto

/-! ### The windows of the image (R169 step 2) -/

theorem window_installWindow (s : State) (i : Nat) (x : ImageWindow) (y : WindowId) :
    (s.installWindow i x).window y =
      if Fin.ofNat 64 i = y then (s.window y).installed x else s.window y := by
  rw [State.installWindow, window_installGrants, State.makeWindow, window_setWindow]
  by_cases hy : Fin.ofNat 64 i = y
  · subst hy
    simp only [if_true]
    rfl
  · simp only [if_neg hy]
    rfl

theorem mem_map_installWindow (s : State) (i : Nat) (x : ImageWindow) (n : NodeId) (z : WindowId) :
    z ∈ (s.installWindow i x).map n ↔ z ∈ s.map n ∨ (∃ g ∈ x.grants, g.record.node = n) ∧ z = Fin.ofNat 64 i :=
  mem_map_installGrants ..

theorem mem_map_installWindows {s : State} {n : NodeId} {z : WindowId} (h : z ∈ s.map n) (i : Nat)
    (ws : List ImageWindow) : z ∈ (s.installWindows i ws).map n := by
  induction ws generalizing s i with
  | nil => exact h
  | cons x rest ih => exact ih ((mem_map_installWindow ..).2 (.inl h)) (i + 1)

/-- Windows outside the numbers of the image stay as they were. -/
theorem window_installWindows_outside (s : State) {i : Nat} {ws : List ImageWindow} {y : WindowId}
    (hroom : i + ws.length ≤ 64) (hy : y.val < i ∨ i + ws.length ≤ y.val) :
    (s.installWindows i ws).window y = s.window y := by
  induction ws generalizing s i with
  | nil => rfl
  | cons x rest ih =>
    rw [List.length_cons] at hroom hy
    have hi : (Fin.ofNat 64 i : WindowId).val = i := Nat.mod_eq_of_lt (by omega)
    have hne : Fin.ofNat 64 i ≠ y := fun h => by
      have := congrArg Fin.val h
      omega
    rw [State.installWindows, ih _ (by omega) (by omega), window_installWindow, if_neg hne]

/-- The windows of the image stand at their numbers, and in the maps of the nodes their grants name. -/
theorem installWindows_at {s : State} {i k : Nat} {ws : List ImageWindow} {x : ImageWindow} {y : WindowId}
    (hroom : i + ws.length ≤ 64) (hx : ws[k]? = some x) (hy : y.val = i + k) :
    (s.installWindows i ws).window y = (s.window y).installed x ∧
      ∀ g ∈ x.grants, y ∈ (s.installWindows i ws).map g.record.node := by
  induction ws generalizing s i k with
  | nil => simp at hx
  | cons w rest ih =>
    rw [List.length_cons] at hroom
    have hi : (Fin.ofNat 64 i : WindowId).val = i := Nat.mod_eq_of_lt (by omega)
    rw [State.installWindows]
    cases k with
    | zero =>
      obtain rfl : w = x := Option.some.inj hx
      obtain rfl : Fin.ofNat 64 i = y := Fin.ext (by omega)
      rw [window_installWindows_outside _ (by omega) (by omega), window_installWindow, if_pos rfl]
      exact ⟨rfl, fun g hg => mem_map_installWindows ((mem_map_installWindow ..).2 (.inr ⟨⟨g, hg, rfl⟩, rfl⟩)) ..⟩
    | succ k =>
      have hne : Fin.ofNat 64 i ≠ y := fun h => by
        have := congrArg Fin.val h
        omega
      obtain ⟨hwindow, hmap⟩ := ih (s := s.installWindow i w) (i := i + 1) (by omega) hx (by omega)
      rw [hwindow, window_installWindow, if_neg hne]
      exact ⟨rfl, hmap⟩

/-! ### The installation event -/

theorem imageRights_code {code : Nat} (h : code = 1 ∨ code = 2) : (imageRights code).code = code := by
  rcases h with rfl | rfl <;> rfl

/-- The record of a grant that passes the validation: one of the four nodes, with the rights its byte codes (R168 order
5). -/
theorem record_of_passes {granules : Nat} {before : List ImageWindow} {x : ImageWindow} (h : x.passes granules before)
    {g : ImageGrant} (hg : g ∈ x.grants) :
    ∃ (hn : g.node < 4) (r : Rights), r.code = g.rights ∧ g.record = .fresh ⟨g.node, hn⟩ g.base r := by
  obtain ⟨-, -, -, hfields, -⟩ := h
  obtain ⟨hnode, hrights⟩ := hfields g hg
  have hn : g.node < 4 := Nat.lt_succ_of_le hnode
  refine ⟨hn, imageRights g.rights, imageRights_code hrights, ?_⟩
  rw [ImageGrant.record, show Fin.ofNat 4 g.node = (⟨g.node, hn⟩ : NodeId) from Fin.ext (Nat.mod_eq_of_lt hn)]

/-- The grants of an image window that passes the validation stand in node order (R168 orders 5 and 6, R13). -/
theorem placeGrants_rises_of_passes {granules : Nat} {before : List ImageWindow} {x : ImageWindow}
    (h : x.passes granules before) : (placeGrants x.grants []).Pairwise fun g h => g.node < h.node := by
  have hnode : ∀ g ∈ x.grants, g.record.node.val = g.node := by
    intro g hg
    obtain ⟨_, _, _, hrecord⟩ := record_of_passes h hg
    rw [hrecord]
    rfl
  obtain ⟨-, -, -, -, honce, -, -⟩ := h
  refine placeGrants_rises List.Pairwise.nil (by simp) (honce.imp_of_mem fun hg hk hne heq => hne ?_)
  rw [← hnode _ hg, ← hnode _ hk, heq]

/-- An image to install has at most 8 windows, and each of them passes the validation (R167, R168). -/
theorem passes_of_bootLoad {enabled : Bool} {granules : Nat} {eeprom : List Byte} {m : BootImage}
    (h : bootLoad enabled granules eeprom = .ok m) :
    m.windows.length ≤ 8 ∧ ∀ x ∈ m.windows, ∃ before, x.passes granules before := by
  obtain ⟨hlen, hbad⟩ := bootLoad_ok h
  exact ⟨hlen, passes_of_badAfter_none (before := []) hbad⟩

theorem install_of_error {s : State} {eeprom : List Byte} {b : BootStatus}
    (h : bootLoad s.bootEnable s.granules eeprom = .error b) : s.install eeprom = s.endBoot b 0 (bootFlag b) := by
  rw [State.install, h]

theorem install_of_ok {s : State} {eeprom : List Byte} {m : BootImage}
    (h : bootLoad s.bootEnable s.granules eeprom = .ok m) :
    s.install eeprom = (s.installImage m).endBoot (.of .loaded) (BitVec.ofNat 4 m.mask) .bootDone := by
  rw [State.install, h]

/-- The records the installation can change; every other record stays as it was (R169). -/
theorem install_eq (s : State) (eeprom : List Byte) :
    s.install eeprom =
      { s with
        windows := (s.install eeprom).windows
        maps := (s.install eeprom).maps
        freeList := (s.install eeprom).freeList
        settings := (s.install eeprom).settings
        ports := (s.install eeprom).ports
        attention := (s.install eeprom).attention
        booting := false
        bootStatus := (s.install eeprom).bootStatus
        maskInForce := (s.install eeprom).maskInForce } := by
  cases h : bootLoad s.bootEnable s.granules eeprom with
  | error b => rw [install_of_error h, endBoot_eq]
  | ok m => rw [install_of_ok h, endBoot_eq, installImage_eq]

/-- BOOTING clears, and what the last command left in the port's slots stays (R169 step 6). -/
theorem install_slots (s : State) (eeprom : List Byte) :
    (s.install eeprom).booting = false ∧ (s.install eeprom).cmdDone = s.cmdDone ∧ (s.install eeprom).err = s.err ∧
      (s.install eeprom).errorCode = s.errorCode ∧ (s.install eeprom).params = s.params := by
  refine ⟨?_, ?_, ?_, ?_, ?_⟩ <;> rw [install_eq]

/-- Every WAITING port is decided under the mask the installation puts in force (R64). -/
theorem port_install (s : State) (eeprom : List Byte) (n : NodeId) :
    (s.install eeprom).port n = (s.port n).decided ((s.install eeprom).maskInForce.getLsbD n.val) := by
  cases h : bootLoad s.bootEnable s.granules eeprom with
  | error b => rw [install_of_error h, port_endBoot, endBoot_eq]
  | ok m => rw [install_of_ok h, port_endBoot, endBoot_eq, installImage_eq]; rfl

theorem exec_bootInstall {s : State} (hr : s.resetHeld = false) (hb : s.booting = true) (eeprom : List Byte) :
    exec (.bootInstall eeprom) s = .next (s.install eeprom) :=
  (event_free hr _).trans (congrArg _ (if_pos hb))

section Installed

variable {s : State} {eeprom : List Byte} {m : BootImage} (h : bootLoad s.bootEnable s.granules eeprom = .ok m)
include h

/-- The directory of an installed image is the one its windows make. -/
theorem directory_install : (s.install eeprom).windows = (s.installImage m).windows ∧
    (s.install eeprom).maps = (s.installImage m).maps := by
  rw [install_of_ok h, endBoot_eq]
  exact ⟨rfl, rfl⟩

/-- Windows past those of the image stay as they were (R169 step 2). -/
theorem window_install_past {w : WindowId} (hw : m.windows.length ≤ w.val) :
    (s.install eeprom).window w = s.window w := by
  obtain ⟨hlen, -⟩ := passes_of_bootLoad h
  rw [State.window, (directory_install h).1]
  exact window_installWindows_outside _ (by omega) (by omega)

/-- A window of the image stands at its number, and in the maps of the nodes its grants name (R169 steps 2 and 3). -/
theorem install_at {w : WindowId} {x : ImageWindow} (hx : m.windows[w.val]? = some x) :
    (s.install eeprom).window w = (s.window w).installed x ∧
      ∀ g ∈ x.grants, w ∈ (s.install eeprom).map g.record.node := by
  obtain ⟨hlen, -⟩ := passes_of_bootLoad h
  obtain ⟨hwindows, hmaps⟩ := directory_install h
  rw [State.window, hwindows]
  simp only [State.map, hmaps]
  exact installWindows_at (by omega) hx (by omega)

end Installed

/-- Settles O50: the installation by its outcome, and each window of a valid image by the grants placed in it. -/
theorem bootInstallCompletes : Obligations.BootInstallCompletes := by
  refine ⟨fun s eeprom hr => ⟨fun hb => ?_, fun hb => ?_⟩, fun s eeprom m hr _ hb _ h =>
    ⟨_, exec_bootInstall hr hb eeprom, fun w x hx => ?_, fun w hw => window_install_past h hw⟩⟩
  · exact (event_free hr _).trans (congrArg _ (if_neg (by simp [hb])))
  · obtain ⟨hbooting, hdone, herr, hcode, hparams⟩ := install_slots s eeprom
    refine ⟨_, exec_bootInstall hr hb eeprom, hbooting, hdone, herr, hcode, hparams, fun status h => ?_,
      fun m h => ?_, port_install s eeprom⟩
    · rw [install_of_error h]
      refine ⟨?_, ?_, isPending_endBoot .., ?_, ?_, ?_, ?_⟩ <;> rw [endBoot_eq]
    · rw [install_of_ok h]
      refine ⟨?_, ?_, isPending_endBoot .., ?_⟩ <;> rw [endBoot_eq]
      · rfl
      · rw [installImage_eq]
        rfl
  · obtain ⟨-, hpasses⟩ := passes_of_bootLoad h
    obtain ⟨before, hpass⟩ := hpasses x (List.mem_of_getElem? hx)
    obtain ⟨hwindow, hmaps⟩ := install_at h hx
    have hperm : (placeGrants x.grants []).Perm (x.grants.map ImageGrant.record) := by
      simpa using placeGrants_perm x.grants []
    refine ⟨_, hwindow, rfl, rfl, rfl, rfl, rfl, placeGrants_rises_of_passes hpass, fun g hg => ?_,
      hperm.length_eq.trans (List.length_map ..)⟩
    obtain ⟨hnode, r, hrights, hrecord⟩ := record_of_passes hpass hg
    have hmap := hmaps g hg
    rw [hrecord] at hmap
    exact ⟨hnode, r, hrights, hrecord ▸ hperm.mem_iff.2 (List.mem_map_of_mem hg), hmap⟩

end Sys2Proof.Machine
end

section
/-! SUPPORT. The messages of the nodes: fields read back from their bytes, and for each kind of message the bytes that
its row of the layout accepts (R172). -/

namespace Sys2Proof.Machine

/-! ### The fields of a message -/

/-- Bytes are those of the number they spell. -/
theorem leBytes_leValue (l : List Byte) : leBytes l.length (leValue l) = l := by
  induction l with
  | nil => rfl
  | cons b l ih =>
    have hb := b.isLt
    have hhead : BitVec.ofNat 8 (b.toNat + 256 * leValue l) = b := by bv_omega
    have htail : (b.toNat + 256 * leValue l) / 256 = leValue l := by omega
    rw [List.length_cons, leBytes, leValue, hhead, htail, ih]

/-- The value of a field of whole bytes and the bytes of the field determine each other. -/
theorem ofNat_leValue_eq_iff {w k : Nat} {l : List Byte} (hl : l.length = k) (hw : 2 ^ w = 256 ^ k) (x : BitVec w) :
    BitVec.ofNat w (leValue l) = x ↔ leBytes k x.toNat = l := by
  constructor
  · rintro rfl
    have hlt : leValue l < 2 ^ w := by rw [hw, ← hl]; exact leValue_lt l
    rw [BitVec.toNat_ofNat, Nat.mod_eq_of_lt hlt, ← hl, leBytes_leValue]
  · rintro rfl
    rw [leValue_leBytes_of_lt (hw ▸ x.isLt), BitVec.ofNat_toNat, BitVec.setWidth_eq]

/-- The tag byte of a request bears the tag and nothing in bits 7:5; the bytes from 4 on begin with the node address
and three zero bytes. -/
theorem requestFields_eq_some_iff {b : Byte} {rest : List Byte} {t : Tag} {addr : BitVec 40} :
    Inbound.requestFields b rest = some (t, addr) ↔
      BitVec.ofNat 8 t.val = b ∧ leBytes 5 addr.toNat ++ [0, 0, 0] <+: rest := by
  constructor
  · intro h
    unfold Inbound.requestFields at h
    split_ifs at h with htag hzero
    obtain ⟨rfl, haddr⟩ := Prod.mk.inj (Option.some.inj h)
    have hlen : 8 ≤ rest.length := by
      have := congrArg List.length hzero
      simp only [List.length_take, List.length_drop, List.length_cons, List.length_nil] at this
      omega
    have haddr : leBytes 5 addr.toNat = rest.take 5 :=
      (ofNat_leValue_eq_iff (by rw [List.length_take]; omega) rfl addr).1 haddr
    refine ⟨by simp, ?_⟩
    rw [haddr, ← hzero, ← List.take_add]
    exact List.take_prefix ..
  · rintro ⟨rfl, tail, rfl⟩
    have htag : (BitVec.ofNat 8 t.val).toNat = t.val := toNat_byte_of_lt (by omega)
    have haddr := (ofNat_leValue_eq_iff (length_leBytes 5 addr.toNat) rfl addr).2 rfl
    have hlen := length_leBytes 5 addr.toNat
    simp [Inbound.requestFields, htag, haddr, hlen]

/-! ### The layout row by row (section 11.2) -/

section Rows

variable {b1 b2 b3 : Byte} {rest : List Byte} {m : Inbound}

theorem parse_hello : Inbound.parse (0x01 :: b1 :: b2 :: b3 :: rest) =
    if b1 = 0 ∧ b2 = 0 ∧ b3 = 0 ∧ rest.length = 4 then some (.hello (BitVec.ofNat 32 (leValue rest))) else none := rfl

theorem parse_read : Inbound.parse (0x02 :: b1 :: b2 :: b3 :: rest) =
    if rest.length = 8 then
      (Inbound.requestFields b1 rest).map fun f => .read f.1 f.2 (BitVec.ofNat 16 (leValue [b2, b3]))
    else none := rfl

theorem parse_write : Inbound.parse (0x03 :: b1 :: b2 :: b3 :: rest) =
    if rest.length = 8 + leValue [b2, b3] then
      (Inbound.requestFields b1 rest).map fun f =>
        .write f.1 f.2 (BitVec.ofNat 16 (leValue [b2, b3])) (rest.drop 8)
    else none := rfl

theorem parse_revokeAck : Inbound.parse (0x04 :: b1 :: b2 :: b3 :: rest) =
    if b2 = 0 ∧ b3 = 0 ∧ rest.length = 0 then some (.revokeAck b1) else none := rfl

theorem encode_read_eq_iff (t : Tag) (addr : BitVec 40) (len : BitVec 16) :
    (Inbound.read t addr len).encode = 0x02 :: b1 :: b2 :: b3 :: rest ↔
      BitVec.ofNat 8 t.val = b1 ∧ leBytes 2 len.toNat = [b2, b3] ∧ leBytes 5 addr.toNat ++ [0, 0, 0] = rest := by
  simp [Inbound.encode, leBytes, and_assoc]

theorem encode_write_eq_iff (t : Tag) (addr : BitVec 40) (len : BitVec 16) (data : List Byte) :
    (Inbound.write t addr len data).encode = 0x03 :: b1 :: b2 :: b3 :: rest ↔
      BitVec.ofNat 8 t.val = b1 ∧ leBytes 2 len.toNat = [b2, b3] ∧
        leBytes 5 addr.toNat ++ [0, 0, 0] ++ data = rest := by
  simp [Inbound.encode, leBytes, and_assoc]

theorem parse_hello_iff :
    Inbound.parse (0x01 :: b1 :: b2 :: b3 :: rest) = some m ↔
      ∃ identity, m = .hello identity ∧ m.encode = 0x01 :: b1 :: b2 :: b3 :: rest := by
  rw [parse_hello, Option.ite_none_right_eq_some]
  constructor
  · rintro ⟨⟨rfl, rfl, rfl, hsize⟩, h⟩
    obtain rfl := Option.some.inj h
    exact ⟨_, rfl, congrArg ([0x01, 0, 0, 0] ++ ·) ((ofNat_leValue_eq_iff hsize rfl _).1 rfl)⟩
  · rintro ⟨identity, rfl, h⟩
    obtain ⟨rfl, rfl, rfl, rfl⟩ : 0 = b1 ∧ 0 = b2 ∧ 0 = b3 ∧ leBytes 4 identity.toNat = rest := by
      simpa [Inbound.encode] using h
    have hsize := length_leBytes 4 identity.toNat
    exact ⟨⟨rfl, rfl, rfl, hsize⟩, by rw [(ofNat_leValue_eq_iff hsize rfl identity).2 rfl]⟩

theorem parse_read_iff :
    Inbound.parse (0x02 :: b1 :: b2 :: b3 :: rest) = some m ↔
      ∃ t addr len, m = .read t addr len ∧ m.encode = 0x02 :: b1 :: b2 :: b3 :: rest := by
  rw [parse_read, Option.ite_none_right_eq_some, Option.map_eq_some_iff]
  constructor
  · rintro ⟨hsize, ⟨t, addr⟩, hfields, rfl⟩
    obtain ⟨htag, hprefix⟩ := requestFields_eq_some_iff.1 hfields
    exact ⟨t, addr, _, rfl, (encode_read_eq_iff ..).2 ⟨htag, (ofNat_leValue_eq_iff (k := 2) rfl rfl _).1 rfl,
      hprefix.eq_of_length (by simp [length_leBytes, hsize])⟩⟩
  · rintro ⟨t, addr, len, rfl, h⟩
    obtain ⟨htag, hlen, rfl⟩ := (encode_read_eq_iff ..).1 h
    refine ⟨by simp [length_leBytes], (t, addr), requestFields_eq_some_iff.2 ⟨htag, List.prefix_rfl⟩, ?_⟩
    rw [(ofNat_leValue_eq_iff (k := 2) rfl rfl len).2 hlen]

theorem parse_write_iff :
    Inbound.parse (0x03 :: b1 :: b2 :: b3 :: rest) = some m ↔
      ∃ t addr len data, m = .write t addr len data ∧ data.length = len.toNat ∧
        m.encode = 0x03 :: b1 :: b2 :: b3 :: rest := by
  constructor
  · intro h
    have hparse := h
    rw [parse_write, Option.ite_none_right_eq_some, Option.map_eq_some_iff] at h
    obtain ⟨-, ⟨t, addr⟩, hfields, rfl⟩ := h
    obtain ⟨htag, data, rfl⟩ := requestFields_eq_some_iff.1 hfields
    have hdrop : (leBytes 5 addr.toNat ++ [0, 0, 0] ++ data).drop 8 = data :=
      List.drop_left' (by simp [length_leBytes])
    exact ⟨t, addr, _, _, rfl, length_of_parse_write hparse,
      (encode_write_eq_iff ..).2 ⟨htag, (ofNat_leValue_eq_iff (k := 2) rfl rfl _).1 rfl, by rw [hdrop]⟩⟩
  · rintro ⟨t, addr, len, data, rfl, hdata, h⟩
    obtain ⟨htag, hlen, rfl⟩ := (encode_write_eq_iff ..).1 h
    have hhead : (leBytes 5 addr.toNat ++ [0, 0, 0]).length = 8 := by simp [length_leBytes]
    have hvalue : leValue [b2, b3] = data.length := by rw [← hlen, hdata, leValue_leBytes_of_lt len.isLt]
    rw [parse_write, if_pos (by rw [List.length_append, hhead, hvalue]),
      requestFields_eq_some_iff.2 ⟨htag, List.prefix_append ..⟩, Option.map_some, List.drop_left' hhead,
      (ofNat_leValue_eq_iff (k := 2) rfl rfl len).2 hlen]

theorem parse_revokeAck_iff :
    Inbound.parse (0x04 :: b1 :: b2 :: b3 :: rest) = some m ↔
      ∃ number, m = .revokeAck number ∧ m.encode = 0x04 :: b1 :: b2 :: b3 :: rest := by
  rw [parse_revokeAck, Option.ite_none_right_eq_some]
  constructor
  · rintro ⟨⟨rfl, rfl, hsize⟩, h⟩
    obtain rfl := Option.some.inj h
    obtain rfl := List.eq_nil_of_length_eq_zero hsize
    exact ⟨b1, rfl, rfl⟩
  · rintro ⟨number, rfl, h⟩
    obtain ⟨rfl, rfl, rfl, rfl⟩ : number = b1 ∧ 0 = b2 ∧ 0 = b3 ∧ [] = rest := by
      simpa [Inbound.encode] using h
    exact ⟨⟨rfl, rfl, rfl⟩, rfl⟩

/-- A well-formed message is of one of four kinds, and its bytes begin with the four of its kind's fixed part. -/
theorem kind_of_parse {bytes : List Byte} (h : Inbound.parse bytes = some m) :
    ∃ kind b1 b2 b3 rest, bytes = kind :: b1 :: b2 :: b3 :: rest ∧
      (kind = 0x01 ∨ kind = 0x02 ∨ kind = 0x03 ∨ kind = 0x04) := by
  unfold Inbound.parse at h
  split at h
  · rename_i kind b1 b2 b3 rest
    refine ⟨kind, b1, b2, b3, rest, rfl, ?_⟩
    by_contra hkind
    obtain ⟨h1, h2, h3, h4⟩ : kind ≠ 0x01 ∧ kind ≠ 0x02 ∧ kind ≠ 0x03 ∧ kind ≠ 0x04 := by
      simpa only [not_or] using hkind
    rw [if_neg h1, if_neg h2, if_neg h3, if_neg h4] at h
    exact absurd h (by simp)
  · exact absurd h (by simp)

end Rows

/-! ### The layout as a whole -/

theorem parse_encode {m : Inbound} (h : m.wellFormed = true) : Inbound.parse m.encode = some m := by
  cases m with
  | hello identity => exact parse_hello_iff.2 ⟨identity, rfl, rfl⟩
  | read t addr len => exact parse_read_iff.2 ⟨t, addr, len, rfl, rfl⟩
  | write t addr len data => exact parse_write_iff.2 ⟨t, addr, len, data, rfl, beq_iff_eq.1 h, rfl⟩
  | revokeAck number => exact parse_revokeAck_iff.2 ⟨number, rfl, rfl⟩

theorem encode_of_parse {bytes : List Byte} {m : Inbound} (h : Inbound.parse bytes = some m) :
    m.wellFormed = true ∧ m.encode = bytes := by
  obtain ⟨kind, b1, b2, b3, rest, rfl, rfl | rfl | rfl | rfl⟩ := kind_of_parse h
  · obtain ⟨identity, rfl, hbytes⟩ := parse_hello_iff.1 h
    exact ⟨rfl, hbytes⟩
  · obtain ⟨t, addr, len, rfl, hbytes⟩ := parse_read_iff.1 h
    exact ⟨rfl, hbytes⟩
  · obtain ⟨t, addr, len, data, rfl, hdata, hbytes⟩ := parse_write_iff.1 h
    exact ⟨beq_iff_eq.2 hdata, hbytes⟩
  · obtain ⟨number, rfl, hbytes⟩ := parse_revokeAck_iff.1 h
    exact ⟨rfl, hbytes⟩

/-- Settles O29: a row of the layout accepts exactly the bytes that the encoder writes for its kind of message. -/
theorem inboundParseInvertsEncode : Obligations.InboundParseInvertsEncode :=
  ⟨fun _ h => parse_encode h, fun _ _ h => encode_of_parse h⟩

end Sys2Proof.Machine
end

section
/-! SUPPORT. What a step does when a command waits; `step_of_idle` says what it does when none does (log 2). -/

namespace Sys2Proof.Machine

theorem step_of_front {s : State} {c : Instr} {rest : List Instr} (h : s.pending = c :: rest) :
    step s = exec c { s with pending := rest } := by
  simp only [step, h]

/-- Settles O1: the front of this queue is `c`, and the state run on differs from `s` in the queue alone. -/
theorem stepRunsFrontCommand : Obligations.StepRunsFrontCommand :=
  fun _ _ _ => step_of_front rfl

end Sys2Proof.Machine
end
